-- ==== Sys2Proof/Word.lean ====
section
/-! DEFINITION. The words of TRB: bytes, the 64-bit words of the command and response ports, and the
five-byte buffer (spec/20_memory.md R50, spec/30_encoding.md R95, R98). -/

namespace Sys2Proof

/-- One byte of a buffer; bit 7 is the most significant (R12). -/
abbrev Byte := BitVec 8

/-- A command word `CW` (R95) or a response word `RW` (R98). -/
abbrev Word := BitVec 64

/-- A five-byte buffer, `[b0, b1, b2, b3, b4]` in the notation of R13. The up buffer, the down buffer
and every bus transfer have this shape (R50). There is no memory of cells beside them (log entry 23). -/
structure Buffer where
  b0 : Byte
  b1 : Byte
  b2 : Byte
  b3 : Byte
  b4 : Byte
deriving DecidableEq, Repr, Inhabited

/-- The buffer INIT writes (R120). -/
def Buffer.zero : Buffer := ⟨0, 0, 0, 0, 0⟩

end Sys2Proof
end

