-- ==== Sys2Proof/Syntax.lean ====
section
/-! DEFINITION. The commands of TRB, one constructor per row of spec/opcode_table.json (R101), and the
names of the buffer fields (R25, R26). -/

namespace Sys2Proof

/-- The nineteen fields of the up buffer, in the order of their ids (R25, R80). -/
inductive UpField where
  | mute
  | smode
  | pll
  | sdir
  | ssl
  | inj
  | mono
  | rmute
  | lmute
  | port1
  | port2
  | stby
  | band
  | clk
  | softmute
  | hcc
  | snc
  | p1ind
  | deemph
deriving DecidableEq, Repr

/-- The six fields of the down buffer, in the order of their ids (R26, R86). -/
inductive DownField where
  | ready
  | blimit
  | spll
  | ifc
  | rxstereo
  | level
deriving DecidableEq, Repr

/-- One command. `hv` is the handle-valid bit of the command word. An argument that R96 reads as an
unsigned number is a `Nat`, the frequency, which R96 reads as a signed number of hertz, is an `Int`;
`wellFormed` bounds them by the 40 bits of `arg` and the 2 bits of `clk` (log entry 16). -/
inductive Instr where
  | init (hv : Bool)
  | deinit (hv : Bool)
  | commit (hv : Bool)
  | refresh (hv : Bool)
  | info (hv : Bool)
  | f2p (hv : Bool) (fHz : Int)
  | f2px (hv : Bool) (fHz : Int) (clk : Nat) (side : Bool)
  | p2f (hv : Bool) (pll : Nat)
  | p2fx (hv : Bool) (pll : Nat) (clk : Nat) (side : Bool)
  | search (hv : Bool) (dir : Nat)
  | abort (hv : Bool)
  | setMute (hv : Bool) (v : Nat)
  | setSmode (hv : Bool) (v : Nat)
  | setPll (hv : Bool) (v : Nat)
  | setSdir (hv : Bool) (v : Nat)
  | setSsl (hv : Bool) (v : Nat)
  | setInj (hv : Bool) (v : Nat)
  | setMono (hv : Bool) (v : Nat)
  | setRmute (hv : Bool) (v : Nat)
  | setLmute (hv : Bool) (v : Nat)
  | setPort1 (hv : Bool) (v : Nat)
  | setPort2 (hv : Bool) (v : Nat)
  | setStby (hv : Bool) (v : Nat)
  | setBand (hv : Bool) (v : Nat)
  | setClk (hv : Bool) (v : Nat)
  | setSoftmute (hv : Bool) (v : Nat)
  | setHcc (hv : Bool) (v : Nat)
  | setSnc (hv : Bool) (v : Nat)
  | setP1ind (hv : Bool) (v : Nat)
  | setDeemph (hv : Bool) (v : Nat)
  | getMute (hv : Bool)
  | getSmode (hv : Bool)
  | getPll (hv : Bool)
  | getSdir (hv : Bool)
  | getSsl (hv : Bool)
  | getInj (hv : Bool)
  | getMono (hv : Bool)
  | getRmute (hv : Bool)
  | getLmute (hv : Bool)
  | getPort1 (hv : Bool)
  | getPort2 (hv : Bool)
  | getStby (hv : Bool)
  | getBand (hv : Bool)
  | getClk (hv : Bool)
  | getSoftmute (hv : Bool)
  | getHcc (hv : Bool)
  | getSnc (hv : Bool)
  | getP1ind (hv : Bool)
  | getDeemph (hv : Bool)
  | getdReady (hv : Bool)
  | getdBlimit (hv : Bool)
  | getdSpll (hv : Bool)
  | getdIfc (hv : Bool)
  | getdRxstereo (hv : Bool)
  | getdLevel (hv : Bool)
deriving DecidableEq, Repr

end Sys2Proof
end

