-- ==== Sys2Proof/WellFormed.lean ====
section
/-! DEFINITION. Which terms of `Instr` a command word can carry (spec/30_encoding.md R95, R96). -/

namespace Sys2Proof

/-- An unsigned argument fits the 40 bits of `arg` (R95, R96). -/
def argFits (v : Nat) : Bool := decide (v < 2 ^ 40)

/-- A frequency is a 40-bit two's-complement number (R96, R200). -/
def hzFits (fHz : Int) : Bool := decide (-(2 ^ 39) ≤ fHz ∧ fHz < 2 ^ 39)

/-- A clock selector fits the 2 bits of `clk` (R95). -/
def clkFits (clk : Nat) : Bool := decide (clk < 4)

/-- The command can be encoded. -/
def wellFormed : Instr → Bool
  | .init _ => true
  | .deinit _ => true
  | .commit _ => true
  | .refresh _ => true
  | .info _ => true
  | .f2p _ fHz => hzFits fHz
  | .f2px _ fHz clk _ => hzFits fHz && clkFits clk
  | .p2f _ pll => argFits pll
  | .p2fx _ pll clk _ => argFits pll && clkFits clk
  | .search _ dir => argFits dir
  | .abort _ => true
  | .setMute _ v => argFits v
  | .setSmode _ v => argFits v
  | .setPll _ v => argFits v
  | .setSdir _ v => argFits v
  | .setSsl _ v => argFits v
  | .setInj _ v => argFits v
  | .setMono _ v => argFits v
  | .setRmute _ v => argFits v
  | .setLmute _ v => argFits v
  | .setPort1 _ v => argFits v
  | .setPort2 _ v => argFits v
  | .setStby _ v => argFits v
  | .setBand _ v => argFits v
  | .setClk _ v => argFits v
  | .setSoftmute _ v => argFits v
  | .setHcc _ v => argFits v
  | .setSnc _ v => argFits v
  | .setP1ind _ v => argFits v
  | .setDeemph _ v => argFits v
  | .getMute _ => true
  | .getSmode _ => true
  | .getPll _ => true
  | .getSdir _ => true
  | .getSsl _ => true
  | .getInj _ => true
  | .getMono _ => true
  | .getRmute _ => true
  | .getLmute _ => true
  | .getPort1 _ => true
  | .getPort2 _ => true
  | .getStby _ => true
  | .getBand _ => true
  | .getClk _ => true
  | .getSoftmute _ => true
  | .getHcc _ => true
  | .getSnc _ => true
  | .getP1ind _ => true
  | .getDeemph _ => true
  | .getdReady _ => true
  | .getdBlimit _ => true
  | .getdSpll _ => true
  | .getdIfc _ => true
  | .getdRxstereo _ => true
  | .getdLevel _ => true

end Sys2Proof
end

