-- ==== Sys2Proof/Decode.lean ====
section
/-! DEFINITION. The command word: its fields, the decoder (total on 64-bit words, refusing by name) and
the encoder (spec/30_encoding.md R95, R96, R101, R102). -/

namespace Sys2Proof

/-- The fields of a command word (R95), `hv` in bit 63 down to `arg` in bits 39 to 0. -/
structure CwFields where
  hv : Bool
  op : BitVec 7
  z1 : BitVec 8
  src : Bool
  clk : BitVec 2
  side : Bool
  z2 : BitVec 4
  arg : BitVec 40
deriving DecidableEq, Repr

/-- The fields of a word, by the bit positions of R95. -/
def unpackCw (cw : Word) : CwFields where
  hv := cw.getLsbD 63
  op := cw.extractLsb' 56 7
  z1 := cw.extractLsb' 48 8
  src := cw.getLsbD 47
  clk := cw.extractLsb' 45 2
  side := cw.getLsbD 44
  z2 := cw.extractLsb' 40 4
  arg := cw.extractLsb' 0 40

/-- The word with given fields, in the order of R95. -/
def packCw (f : CwFields) : Word :=
  BitVec.ofBool f.hv ++ f.op ++ f.z1 ++ BitVec.ofBool f.src ++ f.clk ++ BitVec.ofBool f.side ++ f.z2 ++ f.arg

/-- Why a word is malformed (R102). Every one is answered `IllegalCommand`; the names are the model's
(log entry 18). -/
inductive Malformed where
  | unassignedOp
  | z1NotZero
  | z2NotZero
  | srcNotZero
  | clkNotZero
  | sideNotZero
  | argNotZero
deriving DecidableEq, Repr

/-- `src`, `clk` and `side` must be zero in every command but the conversions (R95, R102). -/
def plainForm (f : CwFields) (i : Instr) : Except Malformed Instr :=
  if f.src then .error .srcNotZero
  else if f.clk ≠ 0 then .error .clkNotZero
  else if f.side then .error .sideNotZero
  else .ok i

/-- A command that takes no argument: `arg` must be zero too (R96, R102). -/
def noArgForm (f : CwFields) (i : Instr) : Except Malformed Instr :=
  if f.arg ≠ 0 then .error .argNotZero else plainForm f i

/-- A conversion: with `src` = 1 the explicit form, else the coupled form, in which `clk` and `side`
must be zero (R95, R102). -/
def convForm (f : CwFields) (coupled explicit : Instr) : Except Malformed Instr :=
  if f.src then .ok explicit else plainForm f coupled

/-- The argument read as an unsigned number (R96). -/
def argNat (f : CwFields) : Nat := f.arg.toNat

/-- The argument read as a signed number of hertz, `sint_40(arg)` (R96). -/
def argInt (f : CwFields) : Int := f.arg.toInt

/-- The opcode map of R101. -/
def decodeOp (f : CwFields) : Except Malformed Instr :=
  match f.op.toNat with
  | 0x00 => noArgForm f (.init f.hv)
  | 0x01 => noArgForm f (.deinit f.hv)
  | 0x02 => noArgForm f (.commit f.hv)
  | 0x03 => noArgForm f (.refresh f.hv)
  | 0x04 => noArgForm f (.info f.hv)
  | 0x05 => convForm f (.f2p f.hv (argInt f)) (.f2px f.hv (argInt f) f.clk.toNat f.side)
  | 0x06 => convForm f (.p2f f.hv (argNat f)) (.p2fx f.hv (argNat f) f.clk.toNat f.side)
  | 0x07 => plainForm f (.search f.hv (argNat f))
  | 0x08 => noArgForm f (.abort f.hv)
  | 0x20 => plainForm f (.setMute f.hv (argNat f))
  | 0x21 => plainForm f (.setSmode f.hv (argNat f))
  | 0x22 => plainForm f (.setPll f.hv (argNat f))
  | 0x23 => plainForm f (.setSdir f.hv (argNat f))
  | 0x24 => plainForm f (.setSsl f.hv (argNat f))
  | 0x25 => plainForm f (.setInj f.hv (argNat f))
  | 0x26 => plainForm f (.setMono f.hv (argNat f))
  | 0x27 => plainForm f (.setRmute f.hv (argNat f))
  | 0x28 => plainForm f (.setLmute f.hv (argNat f))
  | 0x29 => plainForm f (.setPort1 f.hv (argNat f))
  | 0x2A => plainForm f (.setPort2 f.hv (argNat f))
  | 0x2B => plainForm f (.setStby f.hv (argNat f))
  | 0x2C => plainForm f (.setBand f.hv (argNat f))
  | 0x2D => plainForm f (.setClk f.hv (argNat f))
  | 0x2E => plainForm f (.setSoftmute f.hv (argNat f))
  | 0x2F => plainForm f (.setHcc f.hv (argNat f))
  | 0x30 => plainForm f (.setSnc f.hv (argNat f))
  | 0x31 => plainForm f (.setP1ind f.hv (argNat f))
  | 0x32 => plainForm f (.setDeemph f.hv (argNat f))
  | 0x40 => noArgForm f (.getMute f.hv)
  | 0x41 => noArgForm f (.getSmode f.hv)
  | 0x42 => noArgForm f (.getPll f.hv)
  | 0x43 => noArgForm f (.getSdir f.hv)
  | 0x44 => noArgForm f (.getSsl f.hv)
  | 0x45 => noArgForm f (.getInj f.hv)
  | 0x46 => noArgForm f (.getMono f.hv)
  | 0x47 => noArgForm f (.getRmute f.hv)
  | 0x48 => noArgForm f (.getLmute f.hv)
  | 0x49 => noArgForm f (.getPort1 f.hv)
  | 0x4A => noArgForm f (.getPort2 f.hv)
  | 0x4B => noArgForm f (.getStby f.hv)
  | 0x4C => noArgForm f (.getBand f.hv)
  | 0x4D => noArgForm f (.getClk f.hv)
  | 0x4E => noArgForm f (.getSoftmute f.hv)
  | 0x4F => noArgForm f (.getHcc f.hv)
  | 0x50 => noArgForm f (.getSnc f.hv)
  | 0x51 => noArgForm f (.getP1ind f.hv)
  | 0x52 => noArgForm f (.getDeemph f.hv)
  | 0x60 => noArgForm f (.getdReady f.hv)
  | 0x61 => noArgForm f (.getdBlimit f.hv)
  | 0x62 => noArgForm f (.getdSpll f.hv)
  | 0x63 => noArgForm f (.getdIfc f.hv)
  | 0x64 => noArgForm f (.getdRxstereo f.hv)
  | 0x65 => noArgForm f (.getdLevel f.hv)
  | _ => .error .unassignedOp

/-- The fields as a command: `z1` and `z2` must be zero in every word (R95, R102). -/
def decodeFields (f : CwFields) : Except Malformed Instr :=
  if f.z1 ≠ 0 then .error .z1NotZero
  else if f.z2 ≠ 0 then .error .z2NotZero
  else decodeOp f

/-- The decoder: the command a word stands for, or why it is malformed. -/
def decode (cw : Word) : Except Malformed Instr := decodeFields (unpackCw cw)

/-- The fields of a command whose only operand, if any, is `arg`. -/
def plainFields (hv : Bool) (op : BitVec 7) (arg : BitVec 40) : CwFields where
  hv := hv
  op := op
  z1 := 0
  src := false
  clk := 0
  side := false
  z2 := 0
  arg := arg

/-- The fields of an explicit-form conversion: `src` = 1 (R95). -/
def explicitFields (hv : Bool) (op : BitVec 7) (clk : Nat) (side : Bool) (arg : BitVec 40) : CwFields where
  hv := hv
  op := op
  z1 := 0
  src := true
  clk := BitVec.ofNat 2 clk
  side := side
  z2 := 0
  arg := arg

/-- The fields of a command's word, by the map of R101. -/
def encodeFields : Instr → CwFields
  | .init hv => plainFields hv 0x00 0
  | .deinit hv => plainFields hv 0x01 0
  | .commit hv => plainFields hv 0x02 0
  | .refresh hv => plainFields hv 0x03 0
  | .info hv => plainFields hv 0x04 0
  | .f2p hv fHz => plainFields hv 0x05 (BitVec.ofInt 40 fHz)
  | .f2px hv fHz clk side => explicitFields hv 0x05 clk side (BitVec.ofInt 40 fHz)
  | .p2f hv pll => plainFields hv 0x06 (BitVec.ofNat 40 pll)
  | .p2fx hv pll clk side => explicitFields hv 0x06 clk side (BitVec.ofNat 40 pll)
  | .search hv dir => plainFields hv 0x07 (BitVec.ofNat 40 dir)
  | .abort hv => plainFields hv 0x08 0
  | .setMute hv v => plainFields hv 0x20 (BitVec.ofNat 40 v)
  | .setSmode hv v => plainFields hv 0x21 (BitVec.ofNat 40 v)
  | .setPll hv v => plainFields hv 0x22 (BitVec.ofNat 40 v)
  | .setSdir hv v => plainFields hv 0x23 (BitVec.ofNat 40 v)
  | .setSsl hv v => plainFields hv 0x24 (BitVec.ofNat 40 v)
  | .setInj hv v => plainFields hv 0x25 (BitVec.ofNat 40 v)
  | .setMono hv v => plainFields hv 0x26 (BitVec.ofNat 40 v)
  | .setRmute hv v => plainFields hv 0x27 (BitVec.ofNat 40 v)
  | .setLmute hv v => plainFields hv 0x28 (BitVec.ofNat 40 v)
  | .setPort1 hv v => plainFields hv 0x29 (BitVec.ofNat 40 v)
  | .setPort2 hv v => plainFields hv 0x2A (BitVec.ofNat 40 v)
  | .setStby hv v => plainFields hv 0x2B (BitVec.ofNat 40 v)
  | .setBand hv v => plainFields hv 0x2C (BitVec.ofNat 40 v)
  | .setClk hv v => plainFields hv 0x2D (BitVec.ofNat 40 v)
  | .setSoftmute hv v => plainFields hv 0x2E (BitVec.ofNat 40 v)
  | .setHcc hv v => plainFields hv 0x2F (BitVec.ofNat 40 v)
  | .setSnc hv v => plainFields hv 0x30 (BitVec.ofNat 40 v)
  | .setP1ind hv v => plainFields hv 0x31 (BitVec.ofNat 40 v)
  | .setDeemph hv v => plainFields hv 0x32 (BitVec.ofNat 40 v)
  | .getMute hv => plainFields hv 0x40 0
  | .getSmode hv => plainFields hv 0x41 0
  | .getPll hv => plainFields hv 0x42 0
  | .getSdir hv => plainFields hv 0x43 0
  | .getSsl hv => plainFields hv 0x44 0
  | .getInj hv => plainFields hv 0x45 0
  | .getMono hv => plainFields hv 0x46 0
  | .getRmute hv => plainFields hv 0x47 0
  | .getLmute hv => plainFields hv 0x48 0
  | .getPort1 hv => plainFields hv 0x49 0
  | .getPort2 hv => plainFields hv 0x4A 0
  | .getStby hv => plainFields hv 0x4B 0
  | .getBand hv => plainFields hv 0x4C 0
  | .getClk hv => plainFields hv 0x4D 0
  | .getSoftmute hv => plainFields hv 0x4E 0
  | .getHcc hv => plainFields hv 0x4F 0
  | .getSnc hv => plainFields hv 0x50 0
  | .getP1ind hv => plainFields hv 0x51 0
  | .getDeemph hv => plainFields hv 0x52 0
  | .getdReady hv => plainFields hv 0x60 0
  | .getdBlimit hv => plainFields hv 0x61 0
  | .getdSpll hv => plainFields hv 0x62 0
  | .getdIfc hv => plainFields hv 0x63 0
  | .getdRxstereo hv => plainFields hv 0x64 0
  | .getdLevel hv => plainFields hv 0x65 0

/-- The encoder: the word of a command (of a well-formed one, the word that stands for it). -/
def encode (i : Instr) : Word := packCw (encodeFields i)

/-- The command word of an `nbits`-bit table word `w`: bit 0 of `w` is bit 0 of the command word, and every
bit above `nbits` is zero (log entry 19). -/
def tableWord (nbits w : Nat) : Word := BitVec.ofNat 64 (w % 2 ^ nbits)

/-- The host's question: which instruction a table word decodes to, if any. -/
def decodeTableWord (nbits w : Nat) : Option Instr :=
  match decode (tableWord nbits w) with
  | .ok i => some i
  | .error _ => none

/-- The setter of a field (R101: `op` = 0x20 + id). -/
def setterOf (hv : Bool) (v : Nat) : UpField → Instr
  | .mute => .setMute hv v
  | .smode => .setSmode hv v
  | .pll => .setPll hv v
  | .sdir => .setSdir hv v
  | .ssl => .setSsl hv v
  | .inj => .setInj hv v
  | .mono => .setMono hv v
  | .rmute => .setRmute hv v
  | .lmute => .setLmute hv v
  | .port1 => .setPort1 hv v
  | .port2 => .setPort2 hv v
  | .stby => .setStby hv v
  | .band => .setBand hv v
  | .clk => .setClk hv v
  | .softmute => .setSoftmute hv v
  | .hcc => .setHcc hv v
  | .snc => .setSnc hv v
  | .p1ind => .setP1ind hv v
  | .deemph => .setDeemph hv v

/-- The getter of an up field (R101: `op` = 0x40 + id). -/
def getterOf (hv : Bool) : UpField → Instr
  | .mute => .getMute hv
  | .smode => .getSmode hv
  | .pll => .getPll hv
  | .sdir => .getSdir hv
  | .ssl => .getSsl hv
  | .inj => .getInj hv
  | .mono => .getMono hv
  | .rmute => .getRmute hv
  | .lmute => .getLmute hv
  | .port1 => .getPort1 hv
  | .port2 => .getPort2 hv
  | .stby => .getStby hv
  | .band => .getBand hv
  | .clk => .getClk hv
  | .softmute => .getSoftmute hv
  | .hcc => .getHcc hv
  | .snc => .getSnc hv
  | .p1ind => .getP1ind hv
  | .deemph => .getDeemph hv

/-- The getter of a down field (R101: `op` = 0x60 + id). -/
def downGetterOf (hv : Bool) : DownField → Instr
  | .ready => .getdReady hv
  | .blimit => .getdBlimit hv
  | .spll => .getdSpll hv
  | .ifc => .getdIfc hv
  | .rxstereo => .getdRxstereo hv
  | .level => .getdLevel hv

end Sys2Proof
end

