-- ==== Sys2Proof/Config.lean ====
section
/-! DEFINITION. The parameters of spec/00_scope.md R8 and the values the spec leaves free. An OPEN
parameter and a free value is an opaque constant with no body: no proof can see what it is. -/

namespace Sys2Proof

/-- The environment's answer to one bus transaction (R55 to R58): `ok`, with the five bytes a read
delivers (nobody looks at them in the answer to a write or a handshake, log entry 17), or `fail(e)`. -/
inductive Answer where
  | ok (bytes : Buffer)
  | fail (e : Byte)
deriving DecidableEq, Repr, Inhabited

/-- The static descriptor INFO returns (R7, R8, R123): two strings, a pair, a number, a pair and a
number, in units the spec does not give (N5; log entry 9). -/
structure InfoDesc where
  name : String
  manufacturer : String
  voltageMin : Rat
  voltageMax : Rat
  current : Rat
  temperatureMin : Rat
  temperatureMax : Rat
  version : Rat
deriving DecidableEq, Repr, Inhabited

namespace Config

/-- `DEV_ADDR`, OPEN (R8, R62, D23): passed in every bus event, never inspected. -/
opaque devAddr : Nat

/-- `POLL_INTERVAL_MS`, a parameter (R8, R228, D25; 200 by default, 500 also named): only the operand of
`Sleep`. No rule depends on its value, so none is fixed (log entry 9). -/
opaque pollIntervalMs : Nat

/-- `INFO_DESC`, OPEN (R8, R123, D33). -/
opaque infoDesc : InfoDesc

/-- `FREF_KHZ(clk) * 1000`, the reference frequency in hertz (R8, R9, R201): 13000 kHz, 32.768 kHz,
6500 kHz, and none for the selector value 3 or any other value (log entry 10). -/
def frefHz : Nat → Option Nat
  | 0 => some 13000000
  | 1 => some 32768
  | 2 => some 6500000
  | _ => none

/-- `IF_KHZ * 1000`: the offset of the conversion formulas in hertz (R8, R201). -/
def ifHz : Int := 225000

/-- The free answer of the environment to the bus transaction that is the `n`-th draw (R58, U8; log
entry 1). -/
opaque freeAnswer : Nat → Answer

/-- The free contents of a buffer the spec calls unspecified (R31, R121, R290, U9; log entry 4). -/
opaque freeBuffer : Nat → Buffer

/-- Whether, where both could move, the host's ABORT comes before the search controller's next step
(U21; log entry 2). -/
opaque freeAbortFirst : Nat → Bool

end Config

end Sys2Proof
end

