-- ==== Sys2Proof/Machine/State.lean ====
section
/-! DEFINITION. The state of TRB as plain data: what spec/10_state.md R20 names, and the ports of
spec/00_scope.md R11 as the model holds them. -/

namespace Sys2Proof.Machine

/-- The search controller's state register (R20, R23). -/
inductive Fsm where
  | idle
  | committed
  | polling
  | found
  | bandLimit
deriving DecidableEq, Repr

/-- The 3-bit value of `FSM` (R23, D31). -/
def Fsm.code : Fsm → BitVec 3
  | .idle => 0
  | .committed => 1
  | .polling => 2
  | .found => 3
  | .bandLimit => 4

/-- The answer to a transaction that carries no data back (R55, R57). -/
inductive Ack where
  | ok
  | fail (e : Byte)
deriving DecidableEq, Repr

/-- Who takes the next step (R10): the host, whose word on the command port is accepted if TRB is
ready for it; the search controller; the environment, asserting the reset input; or the host and the
environment together, the reset input being asserted while the host's command is in progress, after
the first `done` port events of the command and before its response (R290; log entry 11). -/
inductive Turn where
  | host
  | controller
  | reset
  | resetDuring (done : Nat)
deriving DecidableEq, Repr

/-- An event at a port of R11, with the environment's answer where there is one. -/
inductive Event where
  | busAcquire (r : Ack)
  | busRelease (r : Ack)
  | memWrite (addr : Nat) (bytes : Buffer) (r : Ack)
  | memRead (addr : Nat) (r : Answer)
  | sleep (ms : Nat)
  | response (rw : Word)
  | infoResponse (rw : Word) (record : InfoDesc)
  | resetInput
deriving DecidableEq, Repr

/-- The error statuses (R99, R251). `transportFailure` carries the environment's code (R255). -/
inductive Err where
  | invalidHandle
  | notInitialized
  | transportFailure (e : Byte)
  | outOfRange
  | invalidClock
  | illegalCommand
deriving DecidableEq, Repr

/-- The state. The first four fields are R20's table; the others are the ports of R11 (the host's words
to come, the environment's answers to come, the order of the agents' steps, the record of what has
happened at the ports) and the count of free values drawn (log entries 1, 2, 5). -/
structure State where
  up : Buffer
  down : Buffer
  inited : Bool
  fsm : Fsm
  cmds : List Word
  env : List Answer
  sched : List Turn
  trace : List Event
  drawn : Nat
deriving DecidableEq, Repr

/-- Why the machine stops with a fault. It has no constructor: TRB has no trap and no stuck state, every
error is a status in a response (R250, R261), so no step answers a fault (log entry 20). -/
inductive Fault where
deriving DecidableEq, Repr

/-- Why a command has no meaning. No arm of `exec` raises it. -/
inductive Refusal where
  /-- Raised by an arm of `exec` whose command has no meaning yet (none is left). Safe: the model says
  nothing about that command. -/
  | notModelled (mnemonic : String)
deriving DecidableEq, Repr

/-- What a step answers. -/
abbrev Result := Host.Outcome State Fault Refusal

/-- The launch state (R31, R290, R291): not initialized, `FSM` = Idle. The buffers, which R31 leaves
unspecified, are zero (log entry 3); the ports are empty (log entry 5). -/
def State.reset : State where
  up := Buffer.zero
  down := Buffer.zero
  inited := false
  fsm := .idle
  cmds := []
  env := []
  sched := []
  trace := []
  drawn := 0

end Sys2Proof.Machine
end

