-- ==== Sys2Proof/Machine/Fields.lean ====
section
/-! DEFINITION. The packing of fields into the up buffer and the unpacking of fields from both buffers
(spec/30_encoding.md R80 to R87). -/

namespace Sys2Proof

/-- Byte `i` of a buffer, `UP[i]` or `DOWN[i]` (R13). -/
def Buffer.get (b : Buffer) : Fin 5 → Byte
  | 0 => b.b0
  | 1 => b.b1
  | 2 => b.b2
  | 3 => b.b3
  | 4 => b.b4

/-- The buffer with byte `i` replaced (R13). -/
def Buffer.set (b : Buffer) (i : Fin 5) (v : Byte) : Buffer :=
  match i with
  | 0 => { b with b0 := v }
  | 1 => { b with b1 := v }
  | 2 => { b with b2 := v }
  | 3 => { b with b3 := v }
  | 4 => { b with b4 := v }

/-- One row of the tables R80 and R86: a byte, a mask and a shift. -/
structure Loc where
  byte : Fin 5
  mask : Byte
  shift : Nat
deriving DecidableEq, Repr

/-- Where a field lies: in one row, or in two, the low one holding its low `loWidth` bits. -/
inductive Layout where
  | one (l : Loc)
  | two (hi lo : Loc) (loWidth : Nat)
deriving DecidableEq, Repr

/-- `(buf[i] & m) >> s` (R81, R14). -/
def readLoc (l : Loc) (b : Buffer) : Nat := ((b.get l.byte &&& l.mask) >>> l.shift).toNat

/-- `buf[i] <- (buf[i] & ~m) | ((v << s) & m)` (R81, R14). -/
def writeLoc (l : Loc) (v : Nat) (b : Buffer) : Buffer :=
  b.set l.byte ((b.get l.byte &&& ~~~l.mask) ||| ((BitVec.ofNat 8 v <<< l.shift) &&& l.mask))

/-- A field's value: its high part above its low part (R81, R82, R83, R87). -/
def readLayout (y : Layout) (b : Buffer) : Nat :=
  match y with
  | .one l => readLoc l b
  | .two hi lo w => (readLoc hi b <<< w) ||| readLoc lo b

/-- Write a field: its high part and its low part (R81, R82, R83). -/
def writeLayout (y : Layout) (v : Nat) (b : Buffer) : Buffer :=
  match y with
  | .one l => writeLoc l v b
  | .two hi lo w => writeLoc lo (v % 2 ^ w) (writeLoc hi (v >>> w) b)

/-- The layout of the up buffer (R80). -/
def upLayout : UpField → Layout
  | .mute => .one ⟨0, 0x80, 7⟩
  | .smode => .one ⟨0, 0x40, 6⟩
  | .pll => .two ⟨0, 0x3F, 0⟩ ⟨1, 0xFF, 0⟩ 8
  | .sdir => .one ⟨2, 0x80, 7⟩
  | .ssl => .one ⟨2, 0x60, 5⟩
  | .inj => .one ⟨2, 0x10, 4⟩
  | .mono => .one ⟨2, 0x08, 3⟩
  | .rmute => .one ⟨2, 0x04, 2⟩
  | .lmute => .one ⟨2, 0x02, 1⟩
  | .port1 => .one ⟨2, 0x01, 0⟩
  | .port2 => .one ⟨3, 0x80, 7⟩
  | .stby => .one ⟨3, 0x40, 6⟩
  | .band => .one ⟨3, 0x20, 5⟩
  | .clk => .two ⟨4, 0x80, 7⟩ ⟨3, 0x10, 4⟩ 1
  | .softmute => .one ⟨3, 0x08, 3⟩
  | .hcc => .one ⟨3, 0x04, 2⟩
  | .snc => .one ⟨3, 0x02, 1⟩
  | .p1ind => .one ⟨3, 0x01, 0⟩
  | .deemph => .one ⟨4, 0x40, 6⟩

/-- The layout of the down buffer (R86). -/
def downLayout : DownField → Layout
  | .ready => .one ⟨0, 0x80, 7⟩
  | .blimit => .one ⟨0, 0x40, 6⟩
  | .spll => .two ⟨0, 0x3F, 0⟩ ⟨1, 0xFF, 0⟩ 8
  | .ifc => .one ⟨2, 0x7F, 0⟩
  | .rxstereo => .one ⟨2, 0x80, 7⟩
  | .level => .one ⟨3, 0xF0, 4⟩

/-- `FIELD(UP, f)` (R14, R81 to R83). -/
def upField (f : UpField) (b : Buffer) : Nat := readLayout (upLayout f) b

/-- `SETFIELD(UP, f, v)` (R14, R81 to R83). -/
def setUpField (f : UpField) (v : Nat) (b : Buffer) : Buffer := writeLayout (upLayout f) v b

/-- `FIELD(DOWN, f)` (R14, R87). -/
def downField (f : DownField) (b : Buffer) : Nat := readLayout (downLayout f) b

/-- The width of an up field in bits (R80). -/
def upWidth : UpField → Nat
  | .mute => 1
  | .smode => 1
  | .pll => 14
  | .sdir => 1
  | .ssl => 2
  | .inj => 1
  | .mono => 1
  | .rmute => 1
  | .lmute => 1
  | .port1 => 1
  | .port2 => 1
  | .stby => 1
  | .band => 1
  | .clk => 2
  | .softmute => 1
  | .hcc => 1
  | .snc => 1
  | .p1ind => 1
  | .deemph => 1

/-- The width of a down field in bits (R86). -/
def downWidth : DownField → Nat
  | .ready => 1
  | .blimit => 1
  | .spll => 14
  | .ifc => 7
  | .rxstereo => 1
  | .level => 4

end Sys2Proof
end

