-- ==== Sys2Proof/Machine/Ops.lean ====
section
/-! DEFINITION. The shared operations: state updates, responses, raising an error, the checks every
command begins with, and the bus, sleep and reset transactions. -/

namespace Sys2Proof.Machine

/-! State updates. -/

/-- `UP <- b`. -/
def State.setUp (b : Buffer) (s : State) : State := { s with up := b }

/-- `DOWN <- b`. -/
def State.setDown (b : Buffer) (s : State) : State := { s with down := b }

/-- `INITED <- v`. -/
def State.setInited (v : Bool) (s : State) : State := { s with inited := v }

/-- `FSM <- f`. -/
def State.setFsm (f : Fsm) (s : State) : State := { s with fsm := f }

/-- A port event happens. -/
def State.emit (e : Event) (s : State) : State := { s with trace := s.trace ++ [e] }

/-! Free values: the environment's answers and unspecified buffers. -/

/-- The environment's next answer: the head of `env`, or a free value where the list is used up (R58;
log entry 1). -/
def drawAnswer (s : State) : Answer × State :=
  match s.env with
  | a :: rest => (a, { s with env := rest })
  | [] => (Config.freeAnswer s.drawn, { s with drawn := s.drawn + 1 })

/-- The environment's next `n` answers are used up. -/
def drawMany : Nat → State → State
  | 0, s => s
  | n + 1, s => drawMany n (drawAnswer s).2

/-- `UP, DOWN <- unspecified`: each takes a free value (R31, R121, R290; log entry 4). -/
def forgetBuffers (s : State) : State :=
  { s with
    up := Config.freeBuffer s.drawn
    down := Config.freeBuffer (s.drawn + 1)
    drawn := s.drawn + 2 }

/-! Responses. -/

/-- The response word of R98: status, outcome, three zeros, ioerr, eight zeros, data. -/
def respWord (status : BitVec 3) (outcome : BitVec 2) (ioerr : Byte) (data : BitVec 40) : Word :=
  status ++ outcome ++ (0 : BitVec 3) ++ ioerr ++ (0 : BitVec 8) ++ data

/-- The status code of an error (R99). -/
def Err.code : Err → BitVec 3
  | .invalidHandle => 1
  | .notInitialized => 2
  | .transportFailure _ => 3
  | .outOfRange => 4
  | .invalidClock => 5
  | .illegalCommand => 7

/-- The `ioerr` of an error: the transport's code, zero in every other error (R98, R250). -/
def Err.ioerr : Err → Byte
  | .invalidHandle => 0
  | .notInitialized => 0
  | .transportFailure e => e
  | .outOfRange => 0
  | .invalidClock => 0
  | .illegalCommand => 0

/-- The response word of an error (R250). -/
def errWord (e : Err) : Word := respWord e.code 0 e.ioerr 0

/-- `raise E`, the taking of an exception on this hardware (R13, R250, R261): the response is sent and
nothing else changes. No register saves anything, no mode changes, control goes nowhere. There is no
return from it: the next command is executed as if the failed one had not been issued (R262). -/
def raise (e : Err) (s : State) : State := s.emit (.response (errWord e))

/-- The outcome codes of a SEARCH response (R100). -/
def outcomeNone : BitVec 2 := 0
def outcomeFound : BitVec 2 := 1
def outcomeBandLimit : BitVec 2 := 2
def outcomeCancelled : BitVec 2 := 3

/-- `respond OK(outcome, data)` (R13). -/
def respondOutcome (outcome : BitVec 2) (data : BitVec 40) (s : State) : State :=
  s.emit (.response (respWord 0 outcome 0 data))

/-- `respond OK(data)` (R13). -/
def respondOk (data : BitVec 40) (s : State) : State := respondOutcome outcomeNone data s

/-- `respond OK(data = 0)` with the record `INFO_DESC` on the response port, as one event (R11, R123; log
entry 22). -/
def respondInfo (s : State) : State := s.emit (.infoResponse (respWord 0 outcomeNone 0 0) Config.infoDesc)

/-! The checks a command begins with, in the order of R256. -/

/-- `if hv = 0: raise InvalidHandle()`, else go on (R252). -/
def withHandle (hv : Bool) (s body : State) : State := if hv then body else raise .invalidHandle s

/-- The lifecycle gate (R254): `if INITED = 0: raise NotInitialized()`, else go on. -/
def withInit (s body : State) : State := if s.inited then body else raise .notInitialized s

/-- Handle first, then the gate (R256). -/
def gate (hv : Bool) (s body : State) : State := withHandle hv s (withInit s body)

/-- `if not legal: raise OutOfRange()`, else go on (R253). -/
def inRange (legal : Bool) (s body : State) : State := if legal then body else raise .outOfRange s

/-- A bus transaction, which takes one answer of the environment (R55 to R57). -/
def isBusEvent : Event → Bool
  | .busAcquire _ => true
  | .busRelease _ => true
  | .memWrite _ _ _ => true
  | .memRead _ _ => true
  | .sleep _ => false
  | .response _ => false
  | .infoResponse _ _ => false
  | .resetInput => false

/-! Bus, sleep and reset transactions. Each is one event with its answer. -/

/-- What an answer says to a transaction that carries no data back (R55, R57; log entry 17). -/
def ackOf : Answer → Ack
  | .ok _ => .ok
  | .fail e => .fail e

/-- `BusAcquire()` (R57). -/
def busAcquire (s : State) : Ack × State :=
  let r := drawAnswer s
  (ackOf r.1, r.2.emit (.busAcquire (ackOf r.1)))

/-- `BusRelease()` (R57). -/
def busRelease (s : State) : Ack × State :=
  let r := drawAnswer s
  (ackOf r.1, r.2.emit (.busRelease (ackOf r.1)))

/-- `MemWrite(DEV_ADDR, 5, UP)` (R52, R55, R62): the five bytes verbatim. It changes no TRB state. -/
def memWriteUp (s : State) : Ack × State :=
  let r := drawAnswer s
  (ackOf r.1, r.2.emit (.memWrite Config.devAddr s.up (ackOf r.1)))

/-- `MemRead(DEV_ADDR, 5)` (R56, R62). Whoever issues it stores the bytes. -/
def memRead (s : State) : Answer × State :=
  let r := drawAnswer s
  (r.1, r.2.emit (.memRead Config.devAddr r.1))

/-- `Sleep(POLL_INTERVAL_MS)` (R228): an event with no effect (log entry 12). -/
def sleepPoll (s : State) : State := s.emit (.sleep Config.pollIntervalMs)

/-- Hardware reset (R290): not initialized, `FSM` = Idle, the buffers unspecified, a search in progress
dropped without a response, no bus transaction. -/
def hardwareReset (s : State) : State :=
  ((forgetBuffers s).setInited false |>.setFsm .idle).emit .resetInput

/-- The port events a command adds in going from `s` to `t`. -/
def eventsBetween (s t : State) : List Event := t.trace.drop s.trace.length

/-- The reset input lands inside the command that, left alone, goes from `s` to `t` (R290): its first
`done` port events have happened, never its own response, which is its last event; their answers are
used up, and the command is dropped. What it had written is gone with the buffers (log entry 11). -/
def dropCommand (done : Nat) (s t : State) : State :=
  let kept := (eventsBetween s t).dropLast.take done
  hardwareReset { drawMany (kept.countP isBusEvent) s with trace := s.trace ++ kept }

end Sys2Proof.Machine
end

