-- ==== Sys2Proof/Machine/Operands.lean ====
section
/-! DEFINITION. The operands: which arguments are legal (spec/30_encoding.md R96, spec/60_exceptions.md
R253), the data a result becomes (R98), and where the coupled conversions take clock and side from
(spec/44_tuning_math.md R202). -/

namespace Sys2Proof.Machine

/-- The largest PLL word, 14 bits (R8, R28). -/
def maxPll : Nat := 0x3FFF

/-- The legal values of a setter (R25, R96), compared with the whole argument. -/
def legalSet : UpField → Nat → Bool
  | .mute, v => decide (v ≤ 1)
  | .smode, v => decide (v ≤ 1)
  | .pll, v => decide (v ≤ maxPll)
  | .sdir, v => decide (v ≤ 1)
  | .ssl, v => decide (1 ≤ v ∧ v ≤ 3)
  | .inj, v => decide (v ≤ 1)
  | .mono, v => decide (v ≤ 1)
  | .rmute, v => decide (v ≤ 1)
  | .lmute, v => decide (v ≤ 1)
  | .port1, v => decide (v ≤ 1)
  | .port2, v => decide (v ≤ 1)
  | .stby, v => decide (v ≤ 1)
  | .band, v => decide (v ≤ 1)
  | .clk, v => decide (v ≤ 3)
  | .softmute, v => decide (v ≤ 1)
  | .hcc, v => decide (v ≤ 1)
  | .snc, v => decide (v ≤ 1)
  | .p1ind, v => decide (v ≤ 1)
  | .deemph, v => decide (v ≤ 1)

/-- The legal directions of SEARCH (R96): 0 down, 1 up. -/
def legalDirection (d : Nat) : Bool := decide (d ≤ 1)

/-- The legal operands of P2F and P2FX (R96). -/
def legalPll (p : Nat) : Bool := decide (p ≤ maxPll)

/-- A number as `data`, zero-extended to 40 bits (R98). -/
def dataNat (n : Nat) : BitVec 40 := BitVec.ofNat 40 n

/-- A signed number as `data`, 40-bit two's complement (R98). -/
def dataInt (z : Int) : BitVec 40 := BitVec.ofInt 40 z

/-- The clock selector of the coupled form, `FIELD(UP, CLK)` (R202). -/
def coupledClk (s : State) : Nat := upField .clk s.up

/-- The injection side of the coupled form, `FIELD(UP, INJ)` (R202): true is high-side. -/
def coupledSide (s : State) : Bool := decide (upField .inj s.up = 1)

end Sys2Proof.Machine
end

