-- ==== Sys2Proof/Machine/Convert.lean ====
section
/-! DEFINITION. The frequency and PLL conversions (spec/44_tuning_math.md R200 to R212), on exact
integers. -/

namespace Sys2Proof.Machine

/-- `trunc(n / d)`, toward zero, for a positive `d` (R13, R211). -/
def truncDiv (n d : Int) : Int := if 0 ≤ n then n / d else -(-n / d)

/-- `K_HZ(clk) = FREF_KHZ(clk) * 1000 / 4`, the hertz one PLL unit stands for (R201); none when the
selector is not in the known set (R203). -/
def kHz (clk : Nat) : Option Int := (Config.frefHz clk).map fun f => (f : Int) / 4

/-- `sgn(side)`: +1 for high-side, -1 for low-side (R201). -/
def sgn (side : Bool) : Int := if side then 1 else -1

/-- `F2P_fn` (R204); none for an invalid clock. The result is not bounded. -/
def f2pFn (fHz : Int) (clk : Nat) (side : Bool) : Option Int :=
  (kHz clk).map fun k => truncDiv (fHz + sgn side * Config.ifHz) k

/-- `P2F_fn` (R209); none for an invalid clock. -/
def p2fFn (p : Nat) (clk : Nat) (side : Bool) : Option Int :=
  (kHz clk).map fun k => (p : Int) * k - sgn side * Config.ifHz

/-- Frequency to PLL word after the gate: the clock is checked, then the result's range (R205, R206). -/
def f2pBody (fHz : Int) (clk : Nat) (side : Bool) (s : State) : State :=
  match f2pFn fHz clk side with
  | none => raise .invalidClock s
  | some p => inRange (decide (0 ≤ p ∧ p ≤ (maxPll : Int))) s (respondOk (dataInt p) s)

/-- PLL word to frequency after the gate: the operand is checked, then the clock (R207, R208). -/
def p2fBody (p : Nat) (clk : Nat) (side : Bool) (s : State) : State :=
  inRange (legalPll p) s <|
    match p2fFn p clk side with
    | none => raise .invalidClock s
    | some f => respondOk (dataInt f) s

/-- F2P, the coupled form (R205): clock and side come from UP (R202). -/
def execF2p (hv : Bool) (fHz : Int) (s : State) : Result :=
  .next (gate hv s (f2pBody fHz (coupledClk s) (coupledSide s) s))

/-- F2PX, the explicit form (R206): no handle, no gate, no state is read (D16). -/
def execF2px (_hv : Bool) (fHz : Int) (clk : Nat) (side : Bool) (s : State) : Result :=
  .next (f2pBody fHz clk side s)

/-- P2F, the coupled form (R207). -/
def execP2f (hv : Bool) (pll : Nat) (s : State) : Result :=
  .next (gate hv s (p2fBody pll (coupledClk s) (coupledSide s) s))

/-- P2FX, the explicit form (R208). -/
def execP2fx (_hv : Bool) (pll : Nat) (clk : Nat) (side : Bool) (s : State) : Result :=
  .next (p2fBody pll clk side s)

end Sys2Proof.Machine
end

