-- ==== Sys2Proof/Machine/Getters.lean ====
section
/-! DEFINITION. The nineteen getters of the up buffer and the six of the down buffer
(spec/42_getters.md R160 to R186). -/

namespace Sys2Proof.Machine

/-- What every up getter does (R160): the field's raw value, zero-extended. No I/O, no state written. -/
def getter (f : UpField) (hv : Bool) (s : State) : State :=
  gate hv s (respondOk (dataNat (upField f s.up)) s)

/-- What every down getter does (R180): the field as of the latest refresh. -/
def downGetter (f : DownField) (hv : Bool) (s : State) : State :=
  gate hv s (respondOk (dataNat (downField f s.down)) s)

/-- GET_MUTE (R161). -/
def execGetMute (hv : Bool) (s : State) : Result := .next (getter .mute hv s)

/-- GET_SMODE (R162). -/
def execGetSmode (hv : Bool) (s : State) : Result := .next (getter .smode hv s)

/-- GET_PLL (R163). -/
def execGetPll (hv : Bool) (s : State) : Result := .next (getter .pll hv s)

/-- GET_SDIR (R164). -/
def execGetSdir (hv : Bool) (s : State) : Result := .next (getter .sdir hv s)

/-- GET_SSL (R165). -/
def execGetSsl (hv : Bool) (s : State) : Result := .next (getter .ssl hv s)

/-- GET_INJ (R166). -/
def execGetInj (hv : Bool) (s : State) : Result := .next (getter .inj hv s)

/-- GET_MONO (R167). -/
def execGetMono (hv : Bool) (s : State) : Result := .next (getter .mono hv s)

/-- GET_RMUTE (R168). -/
def execGetRmute (hv : Bool) (s : State) : Result := .next (getter .rmute hv s)

/-- GET_LMUTE (R169). -/
def execGetLmute (hv : Bool) (s : State) : Result := .next (getter .lmute hv s)

/-- GET_PORT1 (R170). -/
def execGetPort1 (hv : Bool) (s : State) : Result := .next (getter .port1 hv s)

/-- GET_PORT2 (R171). -/
def execGetPort2 (hv : Bool) (s : State) : Result := .next (getter .port2 hv s)

/-- GET_STBY (R172). -/
def execGetStby (hv : Bool) (s : State) : Result := .next (getter .stby hv s)

/-- GET_BAND (R173). -/
def execGetBand (hv : Bool) (s : State) : Result := .next (getter .band hv s)

/-- GET_CLK (R174). -/
def execGetClk (hv : Bool) (s : State) : Result := .next (getter .clk hv s)

/-- GET_SOFTMUTE (R175). -/
def execGetSoftmute (hv : Bool) (s : State) : Result := .next (getter .softmute hv s)

/-- GET_HCC (R176). -/
def execGetHcc (hv : Bool) (s : State) : Result := .next (getter .hcc hv s)

/-- GET_SNC (R177). -/
def execGetSnc (hv : Bool) (s : State) : Result := .next (getter .snc hv s)

/-- GET_P1IND (R178). -/
def execGetP1ind (hv : Bool) (s : State) : Result := .next (getter .p1ind hv s)

/-- GET_DEEMPH (R179). -/
def execGetDeemph (hv : Bool) (s : State) : Result := .next (getter .deemph hv s)

/-- GETD_READY (R181). -/
def execGetdReady (hv : Bool) (s : State) : Result := .next (downGetter .ready hv s)

/-- GETD_BLIMIT (R182). -/
def execGetdBlimit (hv : Bool) (s : State) : Result := .next (downGetter .blimit hv s)

/-- GETD_SPLL (R183). -/
def execGetdSpll (hv : Bool) (s : State) : Result := .next (downGetter .spll hv s)

/-- GETD_IFC (R184). -/
def execGetdIfc (hv : Bool) (s : State) : Result := .next (downGetter .ifc hv s)

/-- GETD_RXSTEREO (R185). -/
def execGetdRxstereo (hv : Bool) (s : State) : Result := .next (downGetter .rxstereo hv s)

/-- GETD_LEVEL (R186). -/
def execGetdLevel (hv : Bool) (s : State) : Result := .next (downGetter .level hv s)

end Sys2Proof.Machine
end

