-- ==== Sys2Proof/Machine/Flags.lean ====
section
/-! DEFINITION. The three one-bit flags (spec/10_state.md R24): INITED is a bit of its own, which INIT,
DEINIT and reset write; READY and BLIMIT are bits of DOWN, which change only when DOWN is replaced. No
command sets a flag by arithmetic. -/

namespace Sys2Proof.Machine

/-- READY, `DOWN[0][7]` (R24, R87): 1 ends a search's polling (R226). -/
def readyFlag (down : Buffer) : Bool := decide (downField .ready down = 1)

/-- BLIMIT, `DOWN[0][6]` (R24, R87): looked at only when READY is 1 (R226). -/
def blimitFlag (down : Buffer) : Bool := decide (downField .blimit down = 1)

end Sys2Proof.Machine
end

