-- ==== Sys2Proof/Machine/Lifecycle.lean ====
section
/-! DEFINITION. INIT, DEINIT and INFO (spec/40_lifecycle.md R120 to R124). -/

namespace Sys2Proof.Machine

/-- INIT after its checks (R120): acquire the transport; on success both buffers are zeroed and INITED
is set, on failure nothing has changed. -/
def initBody (s : State) : State :=
  let r := busAcquire s
  match r.1 with
  | .fail e => raise (.transportFailure e) r.2
  | .ok => respondOk 0 (((r.2.setUp Buffer.zero).setDown Buffer.zero).setInited true)

/-- INIT (R120). It is not gated by INITED (R254). -/
def execInit (hv : Bool) (s : State) : Result := .next (withHandle hv s (initBody s))

/-- DEINIT's power-down write: STBY is set in UP, then UP is written (R121). -/
def powerDown (s : State) : Ack × State := memWriteUp (s.setUp (setUpField .stby 1 s.up))

/-- DEINIT after its checks (R121, R122). A failed write is followed by a release whose answer is
ignored, and the write's error is the one reported. After either failure INITED stays 1 and STBY stays
1 (log entry 14). -/
def deinitBody (s : State) : State :=
  let w := powerDown s
  let r := busRelease w.2
  match w.1 with
  | .fail e => raise (.transportFailure e) r.2
  | .ok =>
    match r.1 with
    | .fail e2 => raise (.transportFailure e2) r.2
    | .ok => respondOk 0 (forgetBuffers (r.2.setInited false))

/-- DEINIT (R121, R122). -/
def execDeinit (hv : Bool) (s : State) : Result := .next (gate hv s (deinitBody s))

/-- INFO (R123). It reads no state and ignores `hv` and INITED (D16). -/
def execInfo (_hv : Bool) (s : State) : Result := .next (respondInfo s)

end Sys2Proof.Machine
end

