-- ==== Sys2Proof/Machine/Search.lean ====
section
/-! DEFINITION. SEARCH, ABORT and the search controller's own steps (spec/45_search.md R220 to R233). -/

namespace Sys2Proof.Machine

/-- SEARCH's two field writes, direction first, then mode (R221). -/
def searchFields (dir : Nat) (up : Buffer) : Buffer :=
  setUpField .smode 1 (setUpField .sdir dir up)

/-- SEARCH after its checks (R221, R222): the field writes, then the commit. On success FSM is
Committed and there is no response yet; on failure FSM stays Idle and the fields stay written. -/
def searchBody (dir : Nat) (s : State) : State :=
  let r := memWriteUp (s.setUp (searchFields dir s.up))
  match r.1 with
  | .fail e => raise (.transportFailure e) r.2
  | .ok => r.2.setFsm .committed

/-- SEARCH (R221). -/
def execSearch (hv : Bool) (dir : Nat) (s : State) : Result :=
  .next (gate hv s (inRange (legalDirection dir) s (searchBody dir s)))

/-- End a running search as cancelled: the pending SEARCH gets its response (R230). -/
def cancelSearch (s : State) : State :=
  match s.fsm with
  | .idle => s
  | .committed => (respondOutcome outcomeCancelled 0 s).setFsm .idle
  | .polling => (respondOutcome outcomeCancelled 0 s).setFsm .idle
  | .found => s
  | .bandLimit => s

/-- ABORT (R230): cancel a search that is Committed or Polling, then answer OK. No bus transaction. -/
def execAbort (hv : Bool) (s : State) : Result := .next (gate hv s (respondOk 0 (cancelSearch s)))

/-- After a poll's read: not ready, sleep and poll again; ready, the search has ended one way or the
other. BLIMIT is not looked at while READY is 0 (R226). -/
def examineDown (s : State) : State :=
  if readyFlag s.down then
    if blimitFlag s.down then s.setFsm .bandLimit else s.setFsm .found
  else sleepPoll s

/-- One poll (R225, R226): one read. A failed read ends the search with the transport's error. -/
def poll (s : State) : State :=
  let r := memRead s
  match r.1 with
  | .fail e => (raise (.transportFailure e) r.2).setFsm .idle
  | .ok b => examineDown (r.2.setDown b)

/-- The Found step (R227): DOWN's SPLL is latched into UP's PLL field, with no bus write. -/
def latchFound (s : State) : State :=
  let p := downField .spll s.down
  (respondOutcome outcomeFound (dataNat p) (s.setUp (setUpField .pll p s.up))).setFsm .idle

/-- The BandLimit step (R232): the band edge is reported, UP is not touched. -/
def reportBandLimit (s : State) : State := (respondOutcome outcomeBandLimit 0 s).setFsm .idle

/-- The search controller's step, by R220's table. With FSM = Idle it has none. -/
def controllerStep (s : State) : State :=
  match s.fsm with
  | .idle => s
  | .committed => s.setFsm .polling
  | .polling => poll s
  | .found => latchFound s
  | .bandLimit => reportBandLimit s

end Sys2Proof.Machine
end

