-- ==== Sys2Proof/Machine/Setters.lean ====
section
/-! DEFINITION. The nineteen setters of the up buffer (spec/41_setters.md R130 to R149). -/

namespace Sys2Proof.Machine

/-- A setter after its checks (R130): the field's bits are replaced and OK is answered. No I/O. -/
def setBody (f : UpField) (v : Nat) (s : State) : State :=
  respondOk 0 (s.setUp (setUpField f v s.up))

/-- What every setter does (R130): handle, gate, legal set, and only then the write (C4). -/
def setter (f : UpField) (hv : Bool) (v : Nat) (s : State) : State :=
  gate hv s (inRange (legalSet f v) s (setBody f v s))

/-- SET_MUTE (R131). -/
def execSetMute (hv : Bool) (v : Nat) (s : State) : Result := .next (setter .mute hv v s)

/-- SET_SMODE (R132). -/
def execSetSmode (hv : Bool) (v : Nat) (s : State) : Result := .next (setter .smode hv v s)

/-- SET_PLL (R133). -/
def execSetPll (hv : Bool) (v : Nat) (s : State) : Result := .next (setter .pll hv v s)

/-- SET_SDIR (R134). -/
def execSetSdir (hv : Bool) (v : Nat) (s : State) : Result := .next (setter .sdir hv v s)

/-- SET_SSL (R135). -/
def execSetSsl (hv : Bool) (v : Nat) (s : State) : Result := .next (setter .ssl hv v s)

/-- SET_INJ (R136). -/
def execSetInj (hv : Bool) (v : Nat) (s : State) : Result := .next (setter .inj hv v s)

/-- SET_MONO (R137). -/
def execSetMono (hv : Bool) (v : Nat) (s : State) : Result := .next (setter .mono hv v s)

/-- SET_RMUTE (R138). -/
def execSetRmute (hv : Bool) (v : Nat) (s : State) : Result := .next (setter .rmute hv v s)

/-- SET_LMUTE (R139). -/
def execSetLmute (hv : Bool) (v : Nat) (s : State) : Result := .next (setter .lmute hv v s)

/-- SET_PORT1 (R140). -/
def execSetPort1 (hv : Bool) (v : Nat) (s : State) : Result := .next (setter .port1 hv v s)

/-- SET_PORT2 (R141). -/
def execSetPort2 (hv : Bool) (v : Nat) (s : State) : Result := .next (setter .port2 hv v s)

/-- SET_STBY (R142). -/
def execSetStby (hv : Bool) (v : Nat) (s : State) : Result := .next (setter .stby hv v s)

/-- SET_BAND (R143). -/
def execSetBand (hv : Bool) (v : Nat) (s : State) : Result := .next (setter .band hv v s)

/-- SET_CLK (R144). -/
def execSetClk (hv : Bool) (v : Nat) (s : State) : Result := .next (setter .clk hv v s)

/-- SET_SOFTMUTE (R145). -/
def execSetSoftmute (hv : Bool) (v : Nat) (s : State) : Result := .next (setter .softmute hv v s)

/-- SET_HCC (R146). -/
def execSetHcc (hv : Bool) (v : Nat) (s : State) : Result := .next (setter .hcc hv v s)

/-- SET_SNC (R147). -/
def execSetSnc (hv : Bool) (v : Nat) (s : State) : Result := .next (setter .snc hv v s)

/-- SET_P1IND (R148). -/
def execSetP1ind (hv : Bool) (v : Nat) (s : State) : Result := .next (setter .p1ind hv v s)

/-- SET_DEEMPH (R149). -/
def execSetDeemph (hv : Bool) (v : Nat) (s : State) : Result := .next (setter .deemph hv v s)

end Sys2Proof.Machine
end

