-- ==== Sys2Proof/Machine/Transfer.lean ====
section
/-! DEFINITION. COMMIT and REFRESH (spec/43_transfer.md R190 to R192). -/

namespace Sys2Proof.Machine

/-- COMMIT after its checks (R190): one write of UP, whatever it holds; no state changes. -/
def commitBody (s : State) : State :=
  let r := memWriteUp s
  match r.1 with
  | .fail e => raise (.transportFailure e) r.2
  | .ok => respondOk 0 r.2

/-- COMMIT (R190). -/
def execCommit (hv : Bool) (s : State) : Result := .next (gate hv s (commitBody s))

/-- REFRESH after its checks (R191): one read; all of DOWN is replaced, or nothing. -/
def refreshBody (s : State) : State :=
  let r := memRead s
  match r.1 with
  | .fail e => raise (.transportFailure e) r.2
  | .ok b => respondOk 0 (r.2.setDown b)

/-- REFRESH (R191). -/
def execRefresh (hv : Bool) (s : State) : Result := .next (gate hv s (refreshBody s))

end Sys2Proof.Machine
end

