-- ==== Sys2Proof/Machine/Dispatch.lean ====
section
/-! DEFINITION. One arm per command: each is one direct call of its meaning. -/

namespace Sys2Proof.Machine

def exec (i : Instr) (s : State) : Host.Outcome State Fault Refusal :=
  match i with
  | .init hv => Sys2Proof.Machine.execInit hv s
  | .deinit hv => Sys2Proof.Machine.execDeinit hv s
  | .commit hv => Sys2Proof.Machine.execCommit hv s
  | .refresh hv => Sys2Proof.Machine.execRefresh hv s
  | .info hv => Sys2Proof.Machine.execInfo hv s
  | .f2p hv fHz => Sys2Proof.Machine.execF2p hv fHz s
  | .f2px hv fHz clk side => Sys2Proof.Machine.execF2px hv fHz clk side s
  | .p2f hv pll => Sys2Proof.Machine.execP2f hv pll s
  | .p2fx hv pll clk side => Sys2Proof.Machine.execP2fx hv pll clk side s
  | .search hv dir => Sys2Proof.Machine.execSearch hv dir s
  | .abort hv => Sys2Proof.Machine.execAbort hv s
  | .setMute hv v => Sys2Proof.Machine.execSetMute hv v s
  | .setSmode hv v => Sys2Proof.Machine.execSetSmode hv v s
  | .setPll hv v => Sys2Proof.Machine.execSetPll hv v s
  | .setSdir hv v => Sys2Proof.Machine.execSetSdir hv v s
  | .setSsl hv v => Sys2Proof.Machine.execSetSsl hv v s
  | .setInj hv v => Sys2Proof.Machine.execSetInj hv v s
  | .setMono hv v => Sys2Proof.Machine.execSetMono hv v s
  | .setRmute hv v => Sys2Proof.Machine.execSetRmute hv v s
  | .setLmute hv v => Sys2Proof.Machine.execSetLmute hv v s
  | .setPort1 hv v => Sys2Proof.Machine.execSetPort1 hv v s
  | .setPort2 hv v => Sys2Proof.Machine.execSetPort2 hv v s
  | .setStby hv v => Sys2Proof.Machine.execSetStby hv v s
  | .setBand hv v => Sys2Proof.Machine.execSetBand hv v s
  | .setClk hv v => Sys2Proof.Machine.execSetClk hv v s
  | .setSoftmute hv v => Sys2Proof.Machine.execSetSoftmute hv v s
  | .setHcc hv v => Sys2Proof.Machine.execSetHcc hv v s
  | .setSnc hv v => Sys2Proof.Machine.execSetSnc hv v s
  | .setP1ind hv v => Sys2Proof.Machine.execSetP1ind hv v s
  | .setDeemph hv v => Sys2Proof.Machine.execSetDeemph hv v s
  | .getMute hv => Sys2Proof.Machine.execGetMute hv s
  | .getSmode hv => Sys2Proof.Machine.execGetSmode hv s
  | .getPll hv => Sys2Proof.Machine.execGetPll hv s
  | .getSdir hv => Sys2Proof.Machine.execGetSdir hv s
  | .getSsl hv => Sys2Proof.Machine.execGetSsl hv s
  | .getInj hv => Sys2Proof.Machine.execGetInj hv s
  | .getMono hv => Sys2Proof.Machine.execGetMono hv s
  | .getRmute hv => Sys2Proof.Machine.execGetRmute hv s
  | .getLmute hv => Sys2Proof.Machine.execGetLmute hv s
  | .getPort1 hv => Sys2Proof.Machine.execGetPort1 hv s
  | .getPort2 hv => Sys2Proof.Machine.execGetPort2 hv s
  | .getStby hv => Sys2Proof.Machine.execGetStby hv s
  | .getBand hv => Sys2Proof.Machine.execGetBand hv s
  | .getClk hv => Sys2Proof.Machine.execGetClk hv s
  | .getSoftmute hv => Sys2Proof.Machine.execGetSoftmute hv s
  | .getHcc hv => Sys2Proof.Machine.execGetHcc hv s
  | .getSnc hv => Sys2Proof.Machine.execGetSnc hv s
  | .getP1ind hv => Sys2Proof.Machine.execGetP1ind hv s
  | .getDeemph hv => Sys2Proof.Machine.execGetDeemph hv s
  | .getdReady hv => Sys2Proof.Machine.execGetdReady hv s
  | .getdBlimit hv => Sys2Proof.Machine.execGetdBlimit hv s
  | .getdSpll hv => Sys2Proof.Machine.execGetdSpll hv s
  | .getdIfc hv => Sys2Proof.Machine.execGetdIfc hv s
  | .getdRxstereo hv => Sys2Proof.Machine.execGetdRxstereo hv s
  | .getdLevel hv => Sys2Proof.Machine.execGetdLevel hv s

end Sys2Proof.Machine
end

