-- ==== Sys2Proof/Machine/Port.lean ====
section
/-! DEFINITION. The command port and the order of steps: which word is accepted when
(spec/70_reset_and_hazards.md R302), whose turn it is (spec/00_scope.md R10), and the acceptance of a
word. -/

namespace Sys2Proof.Machine

/-- The opcode of ABORT (R101). -/
def abortOp : BitVec 7 := 0x08

/-- Is TRB ready for the word (R302)? With FSM = Idle for every word; with FSM = Committed or Polling
for ABORT words, well-formed or not (R230); with FSM = Found or BandLimit for none. -/
def accepts (f : Fsm) (cw : Word) : Bool :=
  match f with
  | .idle => true
  | .committed => (unpackCw cw).op == abortOp
  | .polling => (unpackCw cw).op == abortOp
  | .found => false
  | .bandLimit => false

/-- The word on the command port would be accepted now. Only the head of `cmds` is on the port. DESIGN
CHOICE: the host does not take back a held word and presents nothing past it, so an ABORT behind a held
word waits until that word has been accepted (log entry 24). -/
def hostReady (s : State) : Bool :=
  match s.cmds with
  | [] => false
  | cw :: _ => accepts s.fsm cw

/-- Whose turn it is, and the state with that turn taken off the schedule. Where the schedule is used
up: with FSM = Idle the host's; in a search the controller's, unless the host presents a word that would
be accepted, and then the order of the two is a free value (U21; log entry 2). -/
def turn (s : State) : Turn × State :=
  match s.sched with
  | t :: rest => (t, { s with sched := rest })
  | [] =>
    if s.fsm = .idle then (.host, s)
    else if hostReady s then
      (if Config.freeAbortFirst s.drawn then .host else .controller, { s with drawn := s.drawn + 1 })
    else (.controller, s)

/-- An accepted word: a malformed one is answered IllegalCommand before any other check (R102, R256), a
well-formed one is executed. -/
def execWord (cw : Word) (s : State) : Result :=
  match decode cw with
  | .error _ => .next (raise .illegalCommand s)
  | .ok i => exec i s

/-- The host's turn: the word on the port is accepted and consumed, or held, not consumed and without
effect (R302). With no word presented nothing happens (R312; log entry 7). DESIGN CHOICE: a held word
stays on the port, at the head of `cmds`; the spec does not say whether the host may take it back or
present an ABORT past it, and in the model it does neither (log entry 24). -/
def hostStep (s : State) : Result :=
  match s.cmds with
  | [] => .next s
  | cw :: rest => if accepts s.fsm cw then execWord cw { s with cmds := rest } else .next s

/-- The reset input is asserted while the host's command is in progress (R290). Where no command is in
progress, because the port is empty or its word is held, it is a reset like any other. -/
def resetDuringStep (done : Nat) (s : State) : Result :=
  match s.cmds with
  | [] => .next (hardwareReset s)
  | cw :: rest =>
    if accepts s.fsm cw then
      match execWord cw { s with cmds := rest } with
      | .next t => .next (dropCommand done { s with cmds := rest } t)
      | .fault r => .fault r
      | .refused r => .refused r
    else .next (hardwareReset s)

/-- One step of the agent whose turn it is (R10, R220, R290). -/
def agentStep (t : Turn) (s : State) : Result :=
  match t with
  | .host => hostStep s
  | .controller => .next (controllerStep s)
  | .reset => .next (hardwareReset s)
  | .resetDuring done => resetDuringStep done s

/-- Put a word on the command port so that the very next step accepts it: the host has the next turn,
and FSM is Idle unless the word would be accepted as it is (log entry 6). -/
def presentWord (cw : Word) (s : State) : State :=
  { s with
    cmds := cw :: s.cmds
    sched := .host :: s.sched
    fsm := if accepts s.fsm cw then s.fsm else .idle }

end Sys2Proof.Machine
end

