-- ==== Sys2Proof/Machine/Step.lean ====
section
/-! DEFINITION. One step of the machine: the agent whose turn it is moves. -/

namespace Sys2Proof.Machine

/-- One step (R10, R312). -/
def step (s : State) : Host.Outcome State Fault Refusal :=
  agentStep (turn s).1 (turn s).2

/-- The state in which the very next step accepts and runs the table word (log entries 6, 19). -/
def State.withFetchWord (s : State) (nbits w : Nat) : State := presentWord (tableWord nbits w) s

end Sys2Proof.Machine
end

