-- ==== Sys2Proof/Safety.lean ====
section
/-! DEFINITION. What counts as a sound state and a sound record of a run: the promises the spec makes
about the whole machine, in the terms the claims use. -/

namespace Sys2Proof.Machine

/-- A response word has the form of R98 to R100: reserved bits zero, no status 6, a transport code only
with status 3, and neither outcome nor data with an error (U18). -/
def respOk (rw : Word) : Bool :=
  let status := rw.extractLsb' 61 3
  rw.extractLsb' 56 3 == 0 && rw.extractLsb' 40 8 == 0 && status != 6 &&
    (rw.extractLsb' 48 8 == 0 || status == 3) &&
    (status == 0 || (rw.extractLsb' 59 2 == 0 && rw.extractLsb' 0 40 == 0))

/-- An event TRB may show: every bus transfer carries DEV_ADDR (R62), every sleep POLL_INTERVAL_MS
(R228), every response has its form (R98), and INFO's response is OK with the descriptor (R123). -/
def EventOk : Event → Prop
  | .busAcquire _ => True
  | .busRelease _ => True
  | .memWrite addr _ _ => addr = Config.devAddr
  | .memRead addr _ => addr = Config.devAddr
  | .sleep ms => ms = Config.pollIntervalMs
  | .response rw => respOk rw = true
  | .infoResponse rw d => rw = 0 ∧ d = Config.infoDesc
  | .resetInput => True

/-- The invariant of the whole machine: a search runs only on an initialized handle (R302, R220), the
unassigned bits of an initialized up buffer are zero (R27), and the record is sound. -/
structure SoundState (s : State) : Prop where
  searchInited : s.fsm ≠ .idle → s.inited = true
  unassigned : s.inited = true → s.up.b4 &&& 0x3F#8 = 0#8
  events : ∀ e ∈ s.trace, EventOk e

/-- The nineteen field values as five bytes (R84, the packer). -/
def packFields (v : UpField → Nat) : Buffer where
  b0 := BitVec.ofNat 8 ((v .mute <<< 7) ||| (v .smode <<< 6) ||| (v .pll >>> 8))
  b1 := BitVec.ofNat 8 (v .pll % 256)
  b2 := BitVec.ofNat 8 ((v .sdir <<< 7) ||| (v .ssl <<< 5) ||| (v .inj <<< 4) ||| (v .mono <<< 3) |||
    (v .rmute <<< 2) ||| (v .lmute <<< 1) ||| v .port1)
  b3 := BitVec.ofNat 8 ((v .port2 <<< 7) ||| (v .stby <<< 6) ||| (v .band <<< 5) ||| ((v .clk % 2) <<< 4) |||
    (v .softmute <<< 3) ||| (v .hcc <<< 2) ||| (v .snc <<< 1) ||| v .p1ind)
  b4 := BitVec.ofNat 8 (((v .clk / 2) <<< 7) ||| (v .deemph <<< 6))

/-- `k` steps (R312), stopping at a fault or a refusal. -/
def runSteps : Nat → State → Result
  | 0, s => .next s
  | k + 1, s =>
    match step s with
    | .next t => runSteps k t
    | .fault r => .fault r
    | .refused r => .refused r

end Sys2Proof.Machine
end

