-- ==== Sys2Proof/Certificates/Slice0/Obligations.lean ====
section
/-! DEFINITION. The statements for the provers, one `def Obligations.<Name> : Prop` each. What a statement
says of words, masks and answers is written out from the spec's own text, in the helpers under
Sys2Proof.Claims, and not taken from the model's definitions. -/

namespace Sys2Proof.Claims

open Sys2Proof.Machine

/-! Parts of a command word, by the bit positions of R95. -/

/-- Bits 62 to 56. -/
def opOf (cw : Word) : BitVec 7 := cw.extractLsb' 56 7
/-- Bits 55 to 40: `z1`, `src`, `clk`, `side`, `z2`. -/
def midOf (cw : Word) : BitVec 16 := cw.extractLsb' 40 16
/-- Bits 39 to 0. -/
def argOf (cw : Word) : BitVec 40 := cw.extractLsb' 0 40
/-- Bit 63. -/
def hvOf (cw : Word) : Bool := cw.getLsbD 63

/-- The word is malformed, and when it is accepted it is answered IllegalCommand with no other effect (R102). -/
def Refused (cw : Word) : Prop :=
  (∃ e, decode cw = .error e) ∧
    ∀ s : State, execWord cw s = .next { s with trace := s.trace ++ [.response 0xE000000000000000] }

/-- Every word with this `op` and zeros in bits 55 to 40 is the command with its argument read as an
unsigned number; every other word with this `op` is malformed (R95, R96, R101, R102). -/
def DecodesWithArg (op : BitVec 7) (mk : Bool → Nat → Instr) : Prop :=
  ∀ cw : Word, opOf cw = op →
    if midOf cw = 0 then decode cw = .ok (mk (hvOf cw) (argOf cw).toNat) else Refused cw

/-- Every word with this `op` and zeros in bits 55 to 0 is the command; every other word with this `op`
is malformed (R95, R101, R102). -/
def DecodesPlain (op : BitVec 7) (mk : Bool → Instr) : Prop :=
  ∀ cw : Word, opOf cw = op →
    if midOf cw = 0 ∧ argOf cw = 0 then decode cw = .ok (mk (hvOf cw)) else Refused cw

/-- The words of a conversion's `op` (R95, R101, R102): bit 47 selects the explicit form, whose clock and
side are bits 46 to 44; in the coupled form those bits are zero; bits 55 to 48 and 43 to 40 are zero. -/
def DecodesConversion (op : BitVec 7) (coupled : Bool → BitVec 40 → Instr)
    (explicit : Bool → BitVec 40 → BitVec 2 → Bool → Instr) : Prop :=
  ∀ cw : Word, opOf cw = op →
    if cw.extractLsb' 48 8 = 0 ∧ cw.extractLsb' 40 4 = 0 ∧ cw.getLsbD 47 = true then
      decode cw = .ok (explicit (hvOf cw) (argOf cw) (cw.extractLsb' 45 2) (cw.getLsbD 44))
    else if midOf cw = 0 then decode cw = .ok (coupled (hvOf cw) (argOf cw))
    else Refused cw

/-- Rule R102's list: what makes a word malformed. -/
def R102Malformed (cw : Word) : Prop :=
  let op := (opOf cw).toNat
  (0x09 ≤ op ∧ op ≤ 0x1F) ∨ (0x33 ≤ op ∧ op ≤ 0x3F) ∨ (0x53 ≤ op ∧ op ≤ 0x5F) ∨ 0x66 ≤ op ∨
    cw.extractLsb' 48 8 ≠ 0 ∨ cw.extractLsb' 40 4 ≠ 0 ∨
    (op ≠ 0x05 ∧ op ≠ 0x06 ∧ cw.extractLsb' 44 4 ≠ 0) ∨
    ((op = 0x05 ∨ op = 0x06) ∧ cw.getLsbD 47 = false ∧ cw.extractLsb' 44 3 ≠ 0) ∨
    ((op ≤ 0x04 ∨ op = 0x08 ∨ 0x40 ≤ op) ∧ argOf cw ≠ 0)

/-! Answers. -/

/-- The response `rw` is sent and nothing else changes. -/
def answered (rw : Word) (s : State) : State := { s with trace := s.trace ++ [.response rw] }

/-- `status` = 3 in bits 63 to 61 and the transport's code in bits 55 to 48 (R98, R99, R255). -/
def failWord (e : Byte) : Word := 0x6000000000000000#64 ||| (e.setWidth 64 <<< 48)

/-- The two checks of a command that needs an initialized handle, in R256's order: `hv` = 0 answers
status 1, then INITED = 0 answers status 2; else the command's own effect. -/
def gated (hv : Bool) (s effect : State) : State :=
  if hv = false then answered 0x2000000000000000 s
  else if s.inited = false then answered 0x4000000000000000 s
  else effect

/-- A setter's rule: its words, its checks in order, and the bytes it writes (R130). -/
def SetterRule (op : BitVec 7) (mk : Bool → Nat → Instr) (legal : Nat → Bool) (write : Nat → Buffer → Buffer) : Prop :=
  DecodesWithArg op mk ∧
    ∀ hv v s, exec (mk hv v) s =
      .next (gated hv s (if legal v then answered 0 { s with up := write v s.up }
        else answered 0x8000000000000000 s))

/-- A getter's rule: its words, its checks in order, and the data it answers (R160, R180). -/
def GetterRule (op : BitVec 7) (mk : Bool → Instr) (value : State → Word) : Prop :=
  DecodesPlain op mk ∧ ∀ hv s, exec (mk hv) s = .next (gated hv s (answered (value s) s))

/-- `(b & m) >> n` as a number of 64 bits. -/
def bits (b m : Byte) (n : Nat) : Word := ((b &&& m) >>> n).setWidth 64

/-- The legal values of a 1-bit field (R96). -/
def isBit (v : Nat) : Bool := decide (v ≤ 1)

/-! Conversions (R201, R202, R204, R209). -/

/-- `K_HZ(clk)` (R201). -/
def kOf : Nat → Option Int
  | 0 => some 3250000
  | 1 => some 8192
  | 2 => some 1625000
  | _ => none

/-- `sgn(side) * 225000` (R201). -/
def offsetOf (side : Bool) : Int := if side then 225000 else -225000

/-- CLK and INJ of the up buffer, `{UP[4][7], UP[3][4]}` and `UP[2][4]` (R202). -/
def clkOf (up : Buffer) : Nat := 2 * ((up.b4 &&& 0x80#8) >>> 7).toNat + ((up.b3 &&& 0x10#8) >>> 4).toNat
def sideOf (up : Buffer) : Bool := up.b2.getLsbD 4

/-- A signed number as 40 bits of data (R98). -/
def dataOf (z : Int) : Word := (BitVec.ofInt 40 z).setWidth 64

/-- The answer to a frequency (R205, R206): InvalidClock, else OutOfRange, else the PLL word. `Int.tdiv`
is the exact quotient with the fraction dropped, toward zero. -/
def f2pAnswer (fHz : Int) (clk : Nat) (side : Bool) : Word :=
  match kOf clk with
  | none => 0xA000000000000000
  | some k =>
    let p := Int.tdiv (fHz + offsetOf side) k
    if p < 0 ∨ p > 0x3FFF then 0x8000000000000000 else dataOf p

/-- The answer to a PLL word (R207, R208): OutOfRange, else InvalidClock, else the frequency. -/
def p2fAnswer (p : Nat) (clk : Nat) (side : Bool) : Word :=
  if p > 0x3FFF then 0x8000000000000000
  else match kOf clk with
    | none => 0xA000000000000000
    | some k => dataOf (p * k - offsetOf side)

/-! The search. -/

/-- UP with SDIR = d and SMODE = 1 (R221). -/
def searchUp (d : Nat) (up : Buffer) : Buffer :=
  { up with
    b2 := (up.b2 &&& 0x7F#8) ||| (BitVec.ofNat 8 d <<< 7)
    b0 := (up.b0 &&& 0xBF#8) ||| 0x40#8 }

/-- UP with its PLL field taken from DOWN's SPLL (R227). -/
def latchUp (down up : Buffer) : Buffer :=
  { up with b0 := (up.b0 &&& 0xC0#8) ||| (down.b0 &&& 0x3F#8), b1 := down.b1 }

/-- DOWN's SPLL as data (R227). -/
def spllOf (down : Buffer) : Word := ((down.b0 &&& 0x3F#8).setWidth 64 <<< 8) ||| down.b1.setWidth 64

/-- READY and BLIMIT of five received bytes (R24). -/
def readyOf (b : Buffer) : Bool := b.b0.getLsbD 7
def blimitOf (b : Buffer) : Bool := b.b0.getLsbD 6

/-- What the ports show of polls that were not ready (R226): a read and a sleep each. -/
def notReadyEvents (bs : List Buffer) : List Event :=
  bs.flatMap fun b => [Event.memRead Config.devAddr (.ok b), Event.sleep Config.pollIntervalMs]

/-! Turns. -/

/-- The state with the turn taken: the schedule has lost its head, if it had one, and where the order of two agents was
a free value one more is drawn (log entry 2). -/
def moved (s : State) : State := { s with sched := s.sched.tail, drawn := (turn s).2.drawn }

/-- TRB is ready for the word (R302, R230). -/
def readyFor (f : Fsm) (cw : Word) : Prop := f = .idle ∨ ((f = .committed ∨ f = .polling) ∧ opOf cw = 0x08)

/-! Classes of commands. -/

/-- The commands that check the handle (R251): all but INFO, F2PX, P2FX. -/
def needsHandle : Instr → Bool
  | .info _ => false
  | .f2px _ _ _ _ => false
  | .p2fx _ _ _ _ => false
  | _ => true

/-- The commands the lifecycle gate applies to (R254): all but INIT, INFO, F2PX, P2FX. -/
def needsInit : Instr → Bool
  | .init _ => false
  | i => needsHandle i

/-- INIT, DEINIT, COMMIT, REFRESH, SEARCH: the commands that do I/O (R61). -/
def doesIo : Instr → Bool
  | .init _ => true
  | .deinit _ => true
  | .commit _ => true
  | .refresh _ => true
  | .search _ _ => true
  | _ => false

/-- The four conversions (R251). -/
def converts : Instr → Bool
  | .f2p _ _ => true
  | .f2px _ _ _ _ => true
  | .p2f _ _ => true
  | .p2fx _ _ _ _ => true
  | _ => false

/-- The commands with a range to check (R251, R253): every SET_*, SEARCH and the conversions. -/
def ranged : Instr → Bool
  | .search _ _ => true
  | .setMute _ _ => true
  | .setSmode _ _ => true
  | .setPll _ _ => true
  | .setSdir _ _ => true
  | .setSsl _ _ => true
  | .setInj _ _ => true
  | .setMono _ _ => true
  | .setRmute _ _ => true
  | .setLmute _ _ => true
  | .setPort1 _ _ => true
  | .setPort2 _ _ => true
  | .setStby _ _ => true
  | .setBand _ _ => true
  | .setClk _ _ => true
  | .setSoftmute _ _ => true
  | .setHcc _ _ => true
  | .setSnc _ _ => true
  | .setP1ind _ _ => true
  | .setDeemph _ _ => true
  | i => converts i

/-- R251's table: may the command answer this status? -/
def mayAnswer (i : Instr) (status : BitVec 3) : Prop :=
  status = 0 ∨ (status = 1 ∧ needsHandle i = true) ∨ (status = 2 ∧ needsInit i = true) ∨
    (status = 3 ∧ doesIo i = true) ∨ (status = 4 ∧ ranged i = true) ∨ (status = 5 ∧ converts i = true)

/-- The status of a response word, bits 63 to 61 (R98). -/
def statusOf (rw : Word) : BitVec 3 := rw.extractLsb' 61 3

/-- The conversions in explicit form (R206, R208). -/
def explicitForm : Instr → Bool
  | .f2px _ _ _ _ => true
  | .p2fx _ _ _ _ => true
  | _ => false

/-- A bus or sleep event. -/
def isIo : Event → Bool
  | .busAcquire _ => true
  | .busRelease _ => true
  | .memWrite _ _ _ => true
  | .memRead _ _ => true
  | .sleep _ => true
  | .response _ => false
  | .infoResponse _ _ => false
  | .resetInput => false

/-- A bus event (R55 to R58). -/
def isBus : Event → Bool
  | .busAcquire _ => true
  | .busRelease _ => true
  | .memWrite _ _ _ => true
  | .memRead _ _ => true
  | _ => false

/-- A response, INFO's included. -/
def isResponse : Event → Bool
  | .response _ => true
  | .infoResponse _ _ => true
  | _ => false

/-- What a reset leaves (R290): INITED = 0, FSM = Idle, every word accepted, and NotInitialized from every command
that needs an initialized handle. -/
def Uninitialized (t : State) : Prop :=
  t.inited = false ∧ t.fsm = .idle ∧ (∀ cw, accepts t.fsm cw = true) ∧
    ∀ i, needsInit i = true → (encode i).getLsbD 63 = true → exec i t = .next (answered 0x4000000000000000 t)

/-- The bus events a command makes before it answers (R120, R121, R122, R190, R191, R222). A SEARCH whose commit succeeds
does not answer: with that commit it has become a search in progress, and it is not listed here. -/
def busEventsOf (i : Instr) (s : State) : List Event :=
  match i with
  | .init hv => if hv then [.busAcquire (ackOf (drawAnswer s).1)] else []
  | .deinit hv =>
    if hv && s.inited then
      [.memWrite Config.devAddr { s.up with b3 := s.up.b3 ||| 0x40#8 } (ackOf (drawAnswer s).1),
        .busRelease (ackOf (drawAnswer (drawAnswer s).2).1)]
    else []
  | .commit hv => if hv && s.inited then [.memWrite Config.devAddr s.up (ackOf (drawAnswer s).1)] else []
  | .refresh hv => if hv && s.inited then [.memRead Config.devAddr (drawAnswer s).1] else []
  | .search hv d =>
    match (drawAnswer s).1 with
    | .fail e =>
      if hv && s.inited && decide (d ≤ 1) then [.memWrite Config.devAddr (searchUp d s.up) (.fail e)] else []
    | .ok _ => []
  | _ => []

/-- R20's column "written by", for commands: who may change UP, DOWN, INITED and FSM. A successful DEINIT
also invalidates both buffers (R31). -/
def mayWriteUp : Instr → Bool
  | .init _ => true
  | .deinit _ => true
  | .search _ _ => true
  | .setMute _ _ => true
  | .setSmode _ _ => true
  | .setPll _ _ => true
  | .setSdir _ _ => true
  | .setSsl _ _ => true
  | .setInj _ _ => true
  | .setMono _ _ => true
  | .setRmute _ _ => true
  | .setLmute _ _ => true
  | .setPort1 _ _ => true
  | .setPort2 _ _ => true
  | .setStby _ _ => true
  | .setBand _ _ => true
  | .setClk _ _ => true
  | .setSoftmute _ _ => true
  | .setHcc _ _ => true
  | .setSnc _ _ => true
  | .setP1ind _ _ => true
  | .setDeemph _ _ => true
  | _ => false
def mayWriteDown : Instr → Bool
  | .init _ => true
  | .deinit _ => true
  | .refresh _ => true
  | _ => false
def mayWriteInited : Instr → Bool
  | .init _ => true
  | .deinit _ => true
  | _ => false
def mayWriteFsm : Instr → Bool
  | .search _ _ => true
  | .abort _ => true
  | _ => false

end Sys2Proof.Claims

open Sys2Proof Sys2Proof.Machine Sys2Proof.Claims

/-! ## Words -/

/-- Every well-formed command survives encoding and decoding, whatever its operands. -/
def Obligations.DecodeEncodeRoundTrip : Prop :=
  ∀ i, wellFormed i = true → decode (encode i) = .ok i

/-- "Unused fields must be zero so that each operation has one encoding" (D2): a word that decodes is the
encoding of what it decodes to, and that command is well-formed. -/
def Obligations.EncodeDecodeRoundTrip : Prop :=
  ∀ cw i, decode cw = .ok i → encode i = cw ∧ wellFormed i = true

/-- R102: a word is malformed exactly when one of the rule's conditions holds. -/
def Obligations.DecoderRefusesExactlyMalformedWords : Prop :=
  ∀ cw, (∃ e, decode cw = .error e) ↔ R102Malformed cw

/-- R102: an accepted malformed word is answered IllegalCommand with no state change and no I/O, whatever
its `hv` and whatever INITED; with FSM = Idle any word is accepted, in a running search an ABORT word. -/
def Obligations.MalformedWordAnswersIllegalCommand : Prop :=
  ∀ s cw rest, (turn s).1 = .host → s.cmds = cw :: rest → readyFor s.fsm cw → R102Malformed cw →
    step s = .next (answered 0xE000000000000000 { moved s with cmds := rest })

/-- A step runs the decoded command: when the host has the turn and the word on the port decodes to `i`
and TRB is ready for it, the step is `exec i` on the state with the word consumed. With FSM = Idle and no
schedule the turn is the host's. -/
def Obligations.StepRunsDecodedCommand : Prop :=
  ∀ s cw rest i, s.cmds = cw :: rest → decode cw = .ok i →
    ((turn s).1 = .host → readyFor s.fsm cw → step s = exec i { moved s with cmds := rest }) ∧
    (s.sched = [] → s.fsm = .idle → step s = exec i { s with cmds := rest })

/-- The host's fetch: a table word put on the port is the next command run. -/
def Obligations.FetchWordRunsNext : Prop :=
  ∀ (s : State) (w : Nat) i, decodeTableWord 64 w = some i → s.fsm = .idle → step (s.withFetchWord 64 w) = exec i s

/-- Words of the spec's own tables (96_test_vectors_fields.md V-ENC, V-ILL), one or more per family. -/
def Obligations.SampleWordsDecode : Prop :=
  decode 0x8000000000000000 = .ok (.init true) ∧
  decode 0x0400000000000000 = .ok (.info false) ∧
  decode 0xA200000000002A00 = .ok (.setPll true 0x2A00) ∧
  decode 0xD200000000000000 = .ok (.getDeemph true) ∧
  decode 0xE500000000000000 = .ok (.getdLevel true) ∧
  decode 0x8300000000000000 = .ok (.refresh true) ∧
  decode 0x850000FFFFFC7119 = .ok (.f2p true (-233191)) ∧
  decode 0x8500C000053EC600 = .ok (.f2px true 88000000 2 false) ∧
  decode 0x8600800000003FFF = .ok (.p2fx true 0x3FFF 0 false) ∧
  decode 0x8700000000000001 = .ok (.search true 1) ∧
  decode 0x85002000053EC600 = .error .clkNotZero

/-! ## Setters -/

/-- R131, R132, R149: the words, the errors in order, and the masks and shifts of SET_MUTE, SET_SMODE and
SET_DEEMPH; nothing else of the state changes. -/
def Obligations.SettersOfBytes0And4 : Prop :=
  SetterRule 0x20 .setMute isBit (fun v b => { b with b0 := (b.b0 &&& 0x7F#8) ||| (BitVec.ofNat 8 v <<< 7) }) ∧
  SetterRule 0x21 .setSmode isBit (fun v b => { b with b0 := (b.b0 &&& 0xBF#8) ||| (BitVec.ofNat 8 v <<< 6) }) ∧
  SetterRule 0x32 .setDeemph isBit (fun v b => { b with b4 := (b.b4 &&& 0xBF#8) ||| (BitVec.ofNat 8 v <<< 6) })

/-- R133: SET_PLL. -/
def Obligations.SetPllWritesFourteenBits : Prop :=
  SetterRule 0x22 .setPll (fun v => decide (v ≤ 0x3FFF)) (fun v b =>
    { b with b0 := (b.b0 &&& 0xC0#8) ||| (BitVec.ofNat 8 (v >>> 8) &&& 0x3F#8), b1 := BitVec.ofNat 8 v })

/-- R134, R136 to R140: SET_SDIR, SET_INJ, SET_MONO, SET_RMUTE, SET_LMUTE, SET_PORT1. -/
def Obligations.SettersOfByte2 : Prop :=
  SetterRule 0x23 .setSdir isBit (fun v b => { b with b2 := (b.b2 &&& 0x7F#8) ||| (BitVec.ofNat 8 v <<< 7) }) ∧
  SetterRule 0x25 .setInj isBit (fun v b => { b with b2 := (b.b2 &&& 0xEF#8) ||| (BitVec.ofNat 8 v <<< 4) }) ∧
  SetterRule 0x26 .setMono isBit (fun v b => { b with b2 := (b.b2 &&& 0xF7#8) ||| (BitVec.ofNat 8 v <<< 3) }) ∧
  SetterRule 0x27 .setRmute isBit (fun v b => { b with b2 := (b.b2 &&& 0xFB#8) ||| (BitVec.ofNat 8 v <<< 2) }) ∧
  SetterRule 0x28 .setLmute isBit (fun v b => { b with b2 := (b.b2 &&& 0xFD#8) ||| (BitVec.ofNat 8 v <<< 1) }) ∧
  SetterRule 0x29 .setPort1 isBit (fun v b => { b with b2 := (b.b2 &&& 0xFE#8) ||| (BitVec.ofNat 8 v <<< 0) })

/-- R135: SET_SSL, which refuses 0. -/
def Obligations.SetSslRefusesZero : Prop :=
  SetterRule 0x24 .setSsl (fun v => decide (1 ≤ v ∧ v ≤ 3)) (fun v b =>
    { b with b2 := (b.b2 &&& 0x9F#8) ||| (BitVec.ofNat 8 v <<< 5) })

/-- R141 to R143, R145 to R148: SET_PORT2, SET_STBY, SET_BAND, SET_SOFTMUTE, SET_HCC, SET_SNC, SET_P1IND. -/
def Obligations.SettersOfByte3 : Prop :=
  SetterRule 0x2A .setPort2 isBit (fun v b => { b with b3 := (b.b3 &&& 0x7F#8) ||| (BitVec.ofNat 8 v <<< 7) }) ∧
  SetterRule 0x2B .setStby isBit (fun v b => { b with b3 := (b.b3 &&& 0xBF#8) ||| (BitVec.ofNat 8 v <<< 6) }) ∧
  SetterRule 0x2C .setBand isBit (fun v b => { b with b3 := (b.b3 &&& 0xDF#8) ||| (BitVec.ofNat 8 v <<< 5) }) ∧
  SetterRule 0x2E .setSoftmute isBit (fun v b => { b with b3 := (b.b3 &&& 0xF7#8) ||| (BitVec.ofNat 8 v <<< 3) }) ∧
  SetterRule 0x2F .setHcc isBit (fun v b => { b with b3 := (b.b3 &&& 0xFB#8) ||| (BitVec.ofNat 8 v <<< 2) }) ∧
  SetterRule 0x30 .setSnc isBit (fun v b => { b with b3 := (b.b3 &&& 0xFD#8) ||| (BitVec.ofNat 8 v <<< 1) }) ∧
  SetterRule 0x31 .setP1ind isBit (fun v b => { b with b3 := (b.b3 &&& 0xFE#8) ||| (BitVec.ofNat 8 v <<< 0) })

/-- R144: SET_CLK writes bit 0 of the value to byte 3 bit 4 and bit 1 to byte 4 bit 7; 3 is stored. -/
def Obligations.SetClkWritesTwoBytes : Prop :=
  SetterRule 0x2D .setClk (fun v => decide (v ≤ 3)) (fun v b =>
    { b with
      b3 := (b.b3 &&& 0xEF#8) ||| (BitVec.ofNat 8 (v % 2) <<< 4)
      b4 := (b.b4 &&& 0x7F#8) ||| (BitVec.ofNat 8 (v / 2 % 2) <<< 7) })

/-- R85, isolation: after a legal set of field `f`, getting `f` answers the value just set, and getting
any other field answers what it answered before. -/
def Obligations.SetThenGetIsolatesFields : Prop :=
  ∀ f v s, s.inited = true → legalSet f v = true →
    ∃ t, exec (setterOf true v f) s = .next t ∧
      ∀ g x, exec (getterOf true g) s = .next (answered x s) →
        exec (getterOf true g) t = .next (answered (if g = f then BitVec.ofNat 64 v else x) t)

/-! ## Getters -/

/-- R161 to R163: GET_MUTE, GET_SMODE, GET_PLL: the words, the errors in order, the data; no state changes. -/
def Obligations.GettersOfBytes0And1 : Prop :=
  GetterRule 0x40 .getMute (fun s => bits s.up.b0 0x80 7) ∧
  GetterRule 0x41 .getSmode (fun s => bits s.up.b0 0x40 6) ∧
  GetterRule 0x42 .getPll (fun s => ((s.up.b0 &&& 0x3F#8).setWidth 64 <<< 8) ||| s.up.b1.setWidth 64)

/-- R164 to R170: GET_SDIR, GET_SSL, GET_INJ, GET_MONO, GET_RMUTE, GET_LMUTE, GET_PORT1. -/
def Obligations.GettersOfByte2 : Prop :=
  GetterRule 0x43 .getSdir (fun s => bits s.up.b2 0x80 7) ∧
  GetterRule 0x44 .getSsl (fun s => bits s.up.b2 0x60 5) ∧
  GetterRule 0x45 .getInj (fun s => bits s.up.b2 0x10 4) ∧
  GetterRule 0x46 .getMono (fun s => bits s.up.b2 0x08 3) ∧
  GetterRule 0x47 .getRmute (fun s => bits s.up.b2 0x04 2) ∧
  GetterRule 0x48 .getLmute (fun s => bits s.up.b2 0x02 1) ∧
  GetterRule 0x49 .getPort1 (fun s => bits s.up.b2 0x01 0)

/-- R171 to R179: GET_PORT2, GET_STBY, GET_BAND, GET_CLK (raw, 3 included), GET_SOFTMUTE, GET_HCC, GET_SNC,
GET_P1IND, GET_DEEMPH. -/
def Obligations.GettersOfBytes3And4 : Prop :=
  GetterRule 0x4A .getPort2 (fun s => bits s.up.b3 0x80 7) ∧
  GetterRule 0x4B .getStby (fun s => bits s.up.b3 0x40 6) ∧
  GetterRule 0x4C .getBand (fun s => bits s.up.b3 0x20 5) ∧
  GetterRule 0x4D .getClk (fun s => (bits s.up.b4 0x80 7 <<< 1) ||| bits s.up.b3 0x10 4) ∧
  GetterRule 0x4E .getSoftmute (fun s => bits s.up.b3 0x08 3) ∧
  GetterRule 0x4F .getHcc (fun s => bits s.up.b3 0x04 2) ∧
  GetterRule 0x50 .getSnc (fun s => bits s.up.b3 0x02 1) ∧
  GetterRule 0x51 .getP1ind (fun s => bits s.up.b3 0x01 0) ∧
  GetterRule 0x52 .getDeemph (fun s => bits s.up.b4 0x40 6)

/-- R181 to R186: the six getters of the down buffer. -/
def Obligations.GettersOfDown : Prop :=
  GetterRule 0x60 .getdReady (fun s => bits s.down.b0 0x80 7) ∧
  GetterRule 0x61 .getdBlimit (fun s => bits s.down.b0 0x40 6) ∧
  GetterRule 0x62 .getdSpll (fun s => ((s.down.b0 &&& 0x3F#8).setWidth 64 <<< 8) ||| s.down.b1.setWidth 64) ∧
  GetterRule 0x63 .getdIfc (fun s => bits s.down.b2 0x7F 0) ∧
  GetterRule 0x64 .getdRxstereo (fun s => bits s.down.b2 0x80 7) ∧
  GetterRule 0x65 .getdLevel (fun s => bits s.down.b3 0xF0 4)

/-! ## Lifecycle -/

/-- R120: INIT. On `ok` both buffers are zeroed and INITED is set; on `fail(e)` nothing has changed but the
environment's answer taken; INITED is not looked at. -/
def Obligations.InitAcquiresAndZeroes : Prop :=
  DecodesPlain 0x00 .init ∧
    ∀ hv s, exec (.init hv) s = .next (
      if hv = false then answered 0x2000000000000000 s
      else match (drawAnswer s).1 with
        | .fail e =>
          { (drawAnswer s).2 with trace := s.trace ++ [.busAcquire (.fail e), .response (failWord e)] }
        | .ok _ =>
          { (drawAnswer s).2 with
            up := ⟨0, 0, 0, 0, 0⟩
            down := ⟨0, 0, 0, 0, 0⟩
            inited := true
            trace := s.trace ++ [.busAcquire .ok, .response 0] })

/-- R121: DEINIT when both bus steps succeed: UP with STBY set is written, the transport is released,
INITED becomes 0. Nothing is said of UP and DOWN afterwards, which the rule leaves unspecified. -/
def Obligations.DeinitPowersDownAndReleases : Prop :=
  DecodesPlain 0x01 .deinit ∧
    (∀ s, exec (.deinit false) s = .next (answered 0x2000000000000000 s)) ∧
    (∀ s, s.inited = false → exec (.deinit true) s = .next (answered 0x4000000000000000 s)) ∧
    ∀ s b1 b2, s.inited = true → (drawAnswer s).1 = .ok b1 → (drawAnswer (drawAnswer s).2).1 = .ok b2 →
      ∃ t, exec (.deinit true) s = .next t ∧ t.inited = false ∧ t.fsm = s.fsm ∧ t.cmds = s.cmds ∧
        t.sched = s.sched ∧ t.env = (drawAnswer (drawAnswer s).2).2.env ∧
        t.trace = s.trace ++ [.memWrite Config.devAddr { s.up with b3 := s.up.b3 ||| 0x40#8 } .ok,
          .busRelease .ok, .response 0]

/-- R122: DEINIT when a bus step fails. After a failed write the release is still made and its answer
ignored; the error is the write's, else the release's. INITED stays 1, UP keeps STBY = 1, DOWN is as
before. -/
def Obligations.DeinitFailureKeepsHandle : Prop :=
  ∀ s, s.inited = true →
    (∀ e, (drawAnswer s).1 = .fail e →
      exec (.deinit true) s = .next { (drawAnswer (drawAnswer s).2).2 with
        up := { s.up with b3 := s.up.b3 ||| 0x40#8 }
        trace := s.trace ++ [.memWrite Config.devAddr { s.up with b3 := s.up.b3 ||| 0x40#8 } (.fail e),
          .busRelease (ackOf (drawAnswer (drawAnswer s).2).1), .response (failWord e)] }) ∧
    (∀ b e2, (drawAnswer s).1 = .ok b → (drawAnswer (drawAnswer s).2).1 = .fail e2 →
      exec (.deinit true) s = .next { (drawAnswer (drawAnswer s).2).2 with
        up := { s.up with b3 := s.up.b3 ||| 0x40#8 }
        trace := s.trace ++ [.memWrite Config.devAddr { s.up with b3 := s.up.b3 ||| 0x40#8 } .ok,
          .busRelease (.fail e2), .response (failWord e2)] })

/-- R123: INFO answers OK with the descriptor, whatever `hv` and INITED; it reads and writes nothing. -/
def Obligations.InfoAnswersDescriptor : Prop :=
  DecodesPlain 0x04 .info ∧
    ∀ hv s, exec (.info hv) s = .next { s with trace := s.trace ++ [.infoResponse 0 Config.infoDesc] }

/-- R124, the moves of the lifecycle, over every step of every agent: INITED goes from 0 to 1 only in a
step that shows a successful acquire, and from 1 to 0 only in one that shows a successful write and
release, or that ends in the reset input, before which a dropped command may have shown some of its
events, but no response other than ABORT's Cancelled one to the search (R230; where it lands is log entry 11, DEDUCED). -/
def Obligations.LifecycleMovesOnlyByInitDeinitReset : Prop :=
  ∀ s t, step s = .next t →
    (s.inited = false → t.inited = true → t.trace = s.trace ++ [.busAcquire .ok, .response 0]) ∧
    (s.inited = true → t.inited = false →
      (∃ b, t.trace = s.trace ++ [.memWrite Config.devAddr b .ok, .busRelease .ok, .response 0]) ∨
        ∃ evs, t.trace = s.trace ++ evs ++ [.resetInput] ∧
          ∀ e ∈ evs, isResponse e = true → e = .response 0x1800000000000000)

/-! ## Transfers -/

/-- R190: COMMIT is one write of UP, verbatim; UP is unchanged whatever the answer. -/
def Obligations.CommitSendsUpVerbatim : Prop :=
  DecodesPlain 0x02 .commit ∧
    ∀ hv s, exec (.commit hv) s = .next (gated hv s (
      match (drawAnswer s).1 with
      | .fail e =>
        { (drawAnswer s).2 with
          trace := s.trace ++ [.memWrite Config.devAddr s.up (.fail e), .response (failWord e)] }
      | .ok _ =>
        { (drawAnswer s).2 with trace := s.trace ++ [.memWrite Config.devAddr s.up .ok, .response 0] }))

/-- R191: REFRESH is one read; it replaces all of DOWN, or nothing. -/
def Obligations.RefreshReplacesDown : Prop :=
  DecodesPlain 0x03 .refresh ∧
    ∀ hv s, exec (.refresh hv) s = .next (gated hv s (
      match (drawAnswer s).1 with
      | .fail e =>
        { (drawAnswer s).2 with
          trace := s.trace ++ [.memRead Config.devAddr (.fail e), .response (failWord e)] }
      | .ok b =>
        { (drawAnswer s).2 with
          down := b
          trace := s.trace ++ [.memRead Config.devAddr (.ok b), .response 0] }))

/-! ## Conversions -/

/-- R204: the pure function, truncating toward zero. -/
def Obligations.F2pTruncatesTowardZero : Prop :=
  ∀ fHz side, f2pFn fHz 0 side = some (Int.tdiv (fHz + offsetOf side) 3250000) ∧
    f2pFn fHz 1 side = some (Int.tdiv (fHz + offsetOf side) 8192) ∧
    f2pFn fHz 2 side = some (Int.tdiv (fHz + offsetOf side) 1625000)

/-- R209: the pure function, exact, and its range, which fits 40 bits two's complement. -/
def Obligations.P2fIsExactAndFits : Prop :=
  ∀ (p : Nat) (clk : Nat) side k, p ≤ 0x3FFF → kOf clk = some k →
    p2fFn p clk side = some (p * k - offsetOf side) ∧
    -225000 ≤ p * k - offsetOf side ∧ p * k - offsetOf side ≤ 53244975000 ∧
    (BitVec.ofInt 40 (p * k - offsetOf side)).toInt = p * k - offsetOf side

/-- R205, R206: F2P, gated, with clock and side from UP, and F2PX, not gated, with those of its word. Neither
changes anything but by its response. -/
def Obligations.F2pForms : Prop :=
  DecodesConversion 0x05 (fun hv a => .f2p hv a.toInt) (fun hv a clk side => .f2px hv a.toInt clk.toNat side) ∧
    (∀ hv fHz s, exec (.f2p hv fHz) s =
      .next (gated hv s (answered (f2pAnswer fHz (clkOf s.up) (sideOf s.up)) s))) ∧
    ∀ hv fHz (clk : BitVec 2) side s, exec (.f2px hv fHz clk.toNat side) s =
      .next (answered (f2pAnswer fHz clk.toNat side) s)

/-- R207, R208: P2F and P2FX. -/
def Obligations.P2fForms : Prop :=
  DecodesConversion 0x06 (fun hv a => .p2f hv a.toNat) (fun hv a clk side => .p2fx hv a.toNat clk.toNat side) ∧
    (∀ hv p s, exec (.p2f hv p) s =
      .next (gated hv s (answered (p2fAnswer p (clkOf s.up) (sideOf s.up)) s))) ∧
    ∀ hv p (clk : BitVec 2) side s, exec (.p2fx hv p clk.toNat side) s =
      .next (answered (p2fAnswer p clk.toNat side) s)

/-- R203: with the clock selector 3 every conversion answers InvalidClock, in the coupled forms when CLK = 3 is
stored in UP (an operand of P2F or P2FX out of range is refused first, R256). -/
def Obligations.ClockThreeIsRefusedByConversions : Prop :=
  ∀ (hv side : Bool) (fHz : Int) (p : Nat) (s : State), p ≤ 0x3FFF →
    exec (.f2px hv fHz 3 side) s = .next (answered 0xA000000000000000 s) ∧
    exec (.p2fx hv p 3 side) s = .next (answered 0xA000000000000000 s) ∧
    (s.inited = true → s.up.b3.getLsbD 4 = true → s.up.b4.getLsbD 7 = true →
      exec (.f2p true fHz) s = .next (answered 0xA000000000000000 s) ∧
      exec (.p2f true p) s = .next (answered 0xA000000000000000 s))

/-- R210: for every PLL word, the three clocks and both sides, the answer of F2PX to the frequency P2FX answered
is the word again, with no tolerance. -/
def Obligations.PllRoundTrip : Prop :=
  ∀ (p : Nat) (clk : Nat) (side : Bool) (s : State), p ≤ 0x3FFF → clk ≤ 2 →
    ∃ f : Int, hzFits f = true ∧
      exec (.p2fx true p clk side) s = .next (answered (dataOf f) s) ∧
      exec (.f2px true f clk side) s = .next (answered (BitVec.ofNat 64 p) s)

/-- R210, the other direction: the frequency comes back within less than one unit, toward the offset. -/
def Obligations.FrequencyRoundTripWithinOneUnit : Prop :=
  ∀ (fHz : Int) (clk : Nat) (side : Bool) (k p : Int), kOf clk = some k → f2pFn fHz clk side = some p →
    0 ≤ p → ∃ g, p2fFn p.toNat clk side = some g ∧ |fHz - g| < k ∧
      |g + offsetOf side| ≤ |fHz + offsetOf side|

/-- R212: the conversions write nothing, and the same command with the same operands, and for the coupled forms
the same UP and INITED, gives the same response every time, whatever the rest of the state; the explicit forms answer
alike from any two states. -/
def Obligations.ConversionsArePure : Prop :=
  ∀ i s s', converts i = true → (explicitForm i = true ∨ (s.up = s'.up ∧ s.inited = s'.inited)) →
    ∃ rw, exec i s = .next (answered rw s) ∧ exec i s' = .next (answered rw s')

/-! ## The search -/

/-- R221, R222: SEARCH writes SDIR and SMODE, then sends UP. On `ok` FSM is Committed and there is no response
yet; on `fail(e)` the two fields stay written and FSM is as it was. -/
def Obligations.SearchCommitsDirectionAndMode : Prop :=
  DecodesWithArg 0x07 .search ∧
    ∀ hv d s, exec (.search hv d) s = .next (gated hv s (
      if d ≤ 1 then
        match (drawAnswer s).1 with
        | .fail e =>
          { (drawAnswer s).2 with
            up := searchUp d s.up
            trace := s.trace ++ [.memWrite Config.devAddr (searchUp d s.up) (.fail e), .response (failWord e)] }
        | .ok _ =>
          { (drawAnswer s).2 with
            up := searchUp d s.up
            fsm := .committed
            trace := s.trace ++ [.memWrite Config.devAddr (searchUp d s.up) .ok] }
      else answered 0x8000000000000000 s))

/-- R223: Committed to Polling, with no other effect. -/
def Obligations.CommittedEntersPolling : Prop :=
  ∀ s, (turn s).1 = .controller → s.fsm = .committed → step s = .next { moved s with fsm := .polling }

/-- R225: a poll whose read fails ends the search with the transport's error; UP and DOWN are unchanged. -/
def Obligations.FailedPollEndsSearch : Prop :=
  ∀ s e, (turn s).1 = .controller → s.fsm = .polling → (drawAnswer (moved s)).1 = .fail e →
    step s = .next { (drawAnswer (moved s)).2 with
      fsm := .idle
      trace := s.trace ++ [.memRead Config.devAddr (.fail e), .response (failWord e)] }

/-- R226: a poll whose read succeeds replaces DOWN; READY = 0 sleeps and stays, whatever BLIMIT; READY = 1 goes to
BandLimit or Found by BLIMIT. -/
def Obligations.PollExaminesReadyThenBandLimit : Prop :=
  ∀ s b, (turn s).1 = .controller → s.fsm = .polling → (drawAnswer (moved s)).1 = .ok b →
    step s = .next (
      let r : State := { (drawAnswer (moved s)).2 with
        down := b, trace := s.trace ++ [.memRead Config.devAddr (.ok b)] }
      if readyOf b = false then { r with trace := r.trace ++ [.sleep Config.pollIntervalMs] }
      else if blimitOf b = true then { r with fsm := .bandLimit }
      else { r with fsm := .found })

/-- R227: the Found step latches SPLL into UP's PLL field and answers Found with the PLL word; no bus event. -/
def Obligations.FoundLatchesSearchedPll : Prop :=
  ∀ s, (turn s).1 = .controller → s.fsm = .found →
    step s = .next { moved s with
      fsm := .idle
      up := latchUp s.down s.up
      trace := s.trace ++ [.response (0x0800000000000000#64 ||| spllOf s.down)] }

/-- R232: the BandLimit step answers BandLimit with data 0 and touches no buffer. -/
def Obligations.BandLimitIsReported : Prop :=
  ∀ s, (turn s).1 = .controller → s.fsm = .bandLimit →
    step s = .next { moved s with fsm := .idle, trace := s.trace ++ [.response 0x1000000000000000] }

/-- R230: ABORT. A Committed or Polling search is answered Cancelled first, then ABORT itself OK; otherwise it only
answers OK. No bus event; UP and DOWN are untouched. ABORT words are accepted in Idle, Committed and Polling, in the
last two no other word is, and in Found and BandLimit none. -/
def Obligations.AbortCancelsSearch : Prop :=
  DecodesPlain 0x08 .abort ∧
    ∀ hv s, exec (.abort hv) s = .next (gated hv s (
      if s.fsm = .committed ∨ s.fsm = .polling then
        { s with fsm := .idle, trace := s.trace ++ [.response 0x1800000000000000, .response 0] }
      else answered 0 s)) ∧
    ∀ f cw, accepts f cw = true ↔ readyFor f cw

/-- R302: a word TRB is not ready for is held: not consumed, no response, no effect. In Committed and Polling that is
every word but an ABORT word, in Found and BandLimit every word. Every other word is accepted: consumed and executed. -/
def Obligations.UnreadyWordIsHeld : Prop :=
  ∀ s cw rest, (turn s).1 = .host → s.cmds = cw :: rest →
    (((s.fsm = .committed ∨ s.fsm = .polling) ∧ opOf cw ≠ 0x08) ∨ s.fsm = .found ∨ s.fsm = .bandLimit →
      step s = .next (moved s)) ∧
    (readyFor s.fsm cw → step s = execWord cw { moved s with cmds := rest })

/-- R229, R233: a whole search. From an idle initialized handle whose host presents one SEARCH word, with a commit
that succeeds, any number of polls that are not ready and then one that is, the search ends after that many
steps and four more with its one response: Found with SPLL latched into UP, or BandLimit with UP's PLL as it was.
The order of the agents is one of two: a schedule that gives the host the first turn and the controller the next ones,
whatever follows; or no schedule at all, where the controller moves because the model says so (log entry 2, DESIGN
CHOICE). -/
def Obligations.SearchRunsToItsOutcome : Prop :=
  ∀ s cw d w bs b rest q, s.inited = true → s.fsm = .idle → s.cmds = [cw] →
    (s.sched = .host :: (List.replicate (bs.length + 3) .controller ++ q) ∨ (s.sched = [] ∧ q = [])) →
    decode cw = .ok (.search true d) → d ≤ 1 →
    s.env = .ok w :: (bs.map Answer.ok ++ .ok b :: rest) →
    (∀ c ∈ bs, readyOf c = false) → readyOf b = true →
    runSteps (bs.length + 4) s = .next { s with
      up := if blimitOf b then searchUp d s.up else latchUp b (searchUp d s.up)
      down := b
      cmds := []
      env := rest
      sched := q
      trace := s.trace ++ [.memWrite Config.devAddr (searchUp d s.up) .ok] ++ notReadyEvents bs ++
        [.memRead Config.devAddr (.ok b),
          .response (if blimitOf b then 0x1000000000000000 else 0x0800000000000000#64 ||| spllOf b)] }

/-- R231: no timeout. As long as the polls are answered not ready, the search polls on, for any number of polls: FSM
stays Polling, no response is sent, and the host's words stay held. The order of the agents is one of two: a schedule
that gives the controller that many turns, whatever follows and whatever the host would present; or no schedule, with no
ABORT word on the port, where the controller moves because the model says so (log entry 2, DESIGN CHOICE). -/
def Obligations.SearchPollsWithoutTimeout : Prop :=
  ∀ s bs rest q, s.fsm = .polling →
    (s.sched = List.replicate bs.length .controller ++ q ∨
      (s.sched = [] ∧ q = [] ∧ ∀ cw r, s.cmds = cw :: r → opOf cw ≠ 0x08)) →
    s.env = bs.map Answer.ok ++ rest → (∀ c ∈ bs, readyOf c = false) →
    runSteps bs.length s = .next { s with
      down := bs.getLastD s.down
      env := rest
      sched := q
      trace := s.trace ++ notReadyEvents bs }

/-- R229, R306: no step of the search controller, scheduled or not, writes SMODE or MUTE, or any byte of UP but the PLL
field. -/
def Obligations.ControllerWritesOnlyPllOfUp : Prop :=
  ∀ s t, (turn s).1 = .controller → step s = .next t →
    t.up.b0 &&& 0xC0#8 = s.up.b0 &&& 0xC0#8 ∧ t.up.b2 = s.up.b2 ∧ t.up.b3 = s.up.b3 ∧ t.up.b4 = s.up.b4 ∧
      t.inited = s.inited ∧ t.cmds = s.cmds

/-! ## Errors and whole-machine rules -/

/-- R252: a command that needs the handle answers InvalidHandle when it is absent, whatever else is wrong, and has read
and written nothing. -/
def Obligations.AbsentHandleAnswersInvalidHandle : Prop :=
  ∀ i s, needsHandle i = true → (encode i).getLsbD 63 = false →
    exec i s = .next (answered 0x2000000000000000 s)

/-- R254: with the handle present and INITED = 0 every command the gate applies to answers NotInitialized before
anything else, with no effect and no I/O; INIT, INFO, F2PX and P2FX complete, and no response they add has status 2. -/
def Obligations.GateAnswersNotInitialized : Prop :=
  ∀ i s, (needsInit i = true → (encode i).getLsbD 63 = true → s.inited = false →
      exec i s = .next (answered 0x4000000000000000 s)) ∧
    (needsInit i = false → ∃ t evs, exec i s = .next t ∧ t.trace = s.trace ++ evs ∧
      (∀ rw, .response rw ∈ evs → statusOf rw ≠ 2) ∧ ∀ rw d, .infoResponse rw d ∈ evs → statusOf rw ≠ 2)

/-- R251: what a command adds to the record are events whose responses carry only statuses the table gives it. -/
def Obligations.OnlyTabledErrorsAreAnswered : Prop :=
  ∀ i s t, exec i s = .next t → ∃ evs, t.trace = s.trace ++ evs ∧
    ∀ rw, .response rw ∈ evs → mayAnswer i (statusOf rw)

/-- R261: an error other than TransportFailure changes nothing but by its response. -/
def Obligations.ErrorsChangeNothing : Prop :=
  ∀ i s t evs rw, exec i s = .next t → t.trace = s.trace ++ evs → .response rw ∈ evs →
    statusOf rw ≠ 0 → statusOf rw ≠ 3 → t = answered rw s

/-- R255: what a TransportFailure leaves behind: DOWN, INITED and FSM as they were, and UP too but for STBY = 1 after
DEINIT and SDIR, SMODE after SEARCH. -/
def Obligations.TransportFailureResidue : Prop :=
  ∀ i s t evs rw, exec i s = .next t → t.trace = s.trace ++ evs → .response rw ∈ evs → statusOf rw = 3 →
    t.down = s.down ∧ t.inited = s.inited ∧ t.fsm = s.fsm ∧
      (t.up = s.up ∨ (∃ hv, i = .deinit hv ∧ t.up = { s.up with b3 := s.up.b3 ||| 0x40#8 }) ∨
        ∃ hv d, i = .search hv d ∧ t.up = searchUp d s.up)

/-- R61: only INIT, DEINIT, COMMIT, REFRESH and SEARCH do I/O, and a command that ends in InvalidHandle,
NotInitialized, OutOfRange or InvalidClock has done none. -/
def Obligations.OnlyBusCommandsDoIo : Prop :=
  ∀ i s t evs, exec i s = .next t → t.trace = s.trace ++ evs →
    (doesIo i = false → ∀ e ∈ evs, isIo e = false) ∧
    (∀ rw, .response rw ∈ evs → statusOf rw ≠ 0 → statusOf rw ≠ 3 → ∀ e ∈ evs, isIo e = false)

/-- R98, R220, R230: every executed command is answered exactly once, but for a SEARCH that has started, which is answered
later, and an ABORT that ends a search, which answers that search first. -/
def Obligations.OneResponsePerCommand : Prop :=
  ∀ i s t, exec i s = .next t → ∃ evs, t.trace = s.trace ++ evs ∧
    (evs.filter isResponse).length =
      match i with
      | .search _ _ => if evs = [.memWrite Config.devAddr t.up .ok] then 0 else 1
      | .abort _ => if t.fsm = s.fsm then 1 else 2
      | _ => 1

/-- R20, "written by": a command changes UP, DOWN, INITED or FSM only if the table names it, and consumes no word and no
turn of its own. -/
def Obligations.OnlyNamedWritersWrite : Prop :=
  ∀ i s t, exec i s = .next t →
    (t.up ≠ s.up → mayWriteUp i = true) ∧ (t.down ≠ s.down → mayWriteDown i = true) ∧
    (t.inited ≠ s.inited → mayWriteInited i = true) ∧ (t.fsm ≠ s.fsm → mayWriteFsm i = true) ∧
    t.cmds = s.cmds ∧ t.sched = s.sched

/-- R59, over every step: while the handle stays initialized, DOWN after the step is DOWN before it, or the five bytes of
one successful read of that step, or INIT's zeros; never a mixture. -/
def Obligations.DownIsReplacedWholeOrNotAtAll : Prop :=
  ∀ s t, step s = .next t → t.inited = true → ∃ evs, t.trace = s.trace ++ evs ∧
    (t.down = s.down ∨ .memRead Config.devAddr (.ok t.down) ∈ evs ∨
      (.busAcquire .ok ∈ evs ∧ t.down = ⟨0, 0, 0, 0, 0⟩))

/-- No step stops: TRB has no trap and no stuck state, every error is a status (R250, R261, R262). -/
def Obligations.NoStepStops : Prop :=
  ∀ s, ∃ t, step s = .next t

/-- The invariant is kept by every step of every agent. -/
def Obligations.StepKeepsInvariant : Prop :=
  ∀ s t, SoundState s → step s = .next t → SoundState t

/-- The launch state of R31 and R291: INITED = 0, FSM = Idle; and it meets the invariant. -/
def Obligations.LaunchStateMeetsInvariant : Prop :=
  State.reset.inited = false ∧ State.reset.fsm = .idle ∧ SoundState State.reset

/-- R84: in an initialized state that meets the invariant, UP is the packer's function of its nineteen field values. -/
def Obligations.UpIsPackOfItsFields : Prop :=
  ∀ s, SoundState s → s.inited = true → s.up = packFields (fun f => upField f s.up)

/-- R84: the unpacker is the inverse of the packer on field values within their widths. -/
def Obligations.UnpackInvertsPack : Prop :=
  ∀ v : UpField → Nat, (∀ f, v f < 2 ^ upWidth f) → ∀ f, upField f (packFields v) = v f

/-- R290: the reset input clears INITED, returns FSM to Idle, drops a search or a command in progress without a response
and makes no bus event of its own. Nothing is said of UP and DOWN. After it every word is accepted, and every command
that needs an initialized handle answers NotInitialized. With no host command in progress, because the port is empty or
its word is held, nothing else happens: the host's words and the environment's answers to come stay. A command in
progress is consumed and its response is never sent: no response is, but for the Cancelled one by which an ABORT ends a
search before it answers for itself (R230); and the reset adds no bus event to those the command had made. That a reset
lands inside a command, after some of its port events (R11), and what it leaves of them is the model's reading (log entry
11, DEDUCED). -/
def Obligations.ResetInputUninitializes : Prop :=
  ∀ s q,
    (s.sched = .reset :: q ∨
        (∃ k, s.sched = .resetDuring k :: q) ∧ (∀ cw rest, s.cmds = cw :: rest → ¬ readyFor s.fsm cw) →
      ∃ t, step s = .next t ∧ Uninitialized t ∧ t.trace = s.trace ++ [.resetInput] ∧ t.cmds = s.cmds ∧
        t.env = s.env ∧ t.sched = q) ∧
    ∀ k cw rest, s.sched = .resetDuring k :: q → s.cmds = cw :: rest → readyFor s.fsm cw →
      ∃ t evs, step s = .next t ∧ Uninitialized t ∧ t.trace = s.trace ++ evs ++ [.resetInput] ∧ t.cmds = rest ∧
        t.sched = q ∧ (∀ e ∈ evs, isResponse e = true → s.fsm ≠ .idle ∧ e = .response 0x1800000000000000) ∧
        ∀ u, execWord cw { s with cmds := rest, sched := q } = .next u → s.trace ++ evs <+: u.trace

/-- What a reset inside a command leaves in the record, which is the model's reading of R290 (log entry 11): the first
`k` of the port events the command makes, in their order, never its last one, which is its response (or the commit of a
SEARCH that starts); those bus events have used up their answers; then the reset. With FSM = Idle these are, command by
command, the bus events its own rule gives it. A malformed word has shown nothing. -/
def Obligations.ResetInsideCommandLeavesItsBusEvents : Prop :=
  ∀ s q k cw rest, s.sched = .resetDuring k :: q → s.cmds = cw :: rest → readyFor s.fsm cw →
    ∃ t kept, step s = .next t ∧ t.trace = s.trace ++ kept ++ [.resetInput] ∧
      t.env = s.env.drop (kept.filter isBus).length ∧
      ((∃ e, decode cw = .error e) → kept = []) ∧
      ∀ i, decode cw = .ok i →
        (s.fsm = .idle → kept = (busEventsOf i s).take k) ∧
        ∀ u evs, exec i { s with cmds := rest, sched := q } = .next u → u.trace = s.trace ++ evs →
          kept = evs.dropLast.take k
end

