-- ==== Sys2Proof/Laws/Fields.lean ====
section
/-! SUPPORT. Bytes of a buffer and fields of a byte (spec/30_encoding.md R80 to R87). -/

namespace Sys2Proof

@[simp] theorem get_set_same (b : Buffer) (i : Fin 5) (v : Byte) : (b.set i v).get i = v := by
  fin_cases i <;> rfl

/-- Replacing a byte leaves the other four. -/
theorem get_set_other (b : Buffer) {i j : Fin 5} (v : Byte) (h : j ≠ i) : (b.set i v).get j = b.get j := by
  fin_cases i <;> fin_cases j <;> first | rfl | exact absurd rfl h

/-- Two buffers with the same five bytes are one. -/
theorem buffer_ext {a b : Buffer} (h : ∀ i, a.get i = b.get i) : a = b := by
  obtain ⟨a0, a1, a2, a3, a4⟩ := a
  obtain ⟨b0, b1, b2, b3, b4⟩ := b
  have h0 := h 0
  have h1 := h 1
  have h2 := h 2
  have h3 := h 3
  have h4 := h 4
  simp only [Buffer.get] at h0 h1 h2 h3 h4
  simp [*]

/-- A field's part in one byte is less than 256. -/
theorem readLoc_lt (l : Loc) (b : Buffer) : readLoc l b < 2 ^ 8 := BitVec.isLt _

/-- A bit outside the mask of the written part keeps its value; a bit inside it is the value's. -/
theorem getLsbD_writeLoc (l : Loc) (v : Nat) (b : Buffer) (i : Nat) (hi : i < 8) :
    ((writeLoc l v b).get l.byte).getLsbD i =
      if l.mask.getLsbD i then (BitVec.ofNat 8 v <<< l.shift).getLsbD i else (b.get l.byte).getLsbD i := by
  simp only [writeLoc, get_set_same, BitVec.getLsbD_or, BitVec.getLsbD_and, BitVec.getLsbD_not, hi,
    decide_true, Bool.true_and]
  cases l.mask.getLsbD i <;> simp

/-- A written part leaves every byte but its own. -/
theorem get_writeLoc_other (l : Loc) (v : Nat) (b : Buffer) {j : Fin 5} (h : j ≠ l.byte) :
    (writeLoc l v b).get j = b.get j := get_set_other b _ h

/-- No field value needs more than 16 bits. -/
theorem readLayout_lt (y : Layout) (b : Buffer) (h : ∀ hi lo w, y = .two hi lo w → w ≤ 8) :
    readLayout y b < 2 ^ 16 := by
  cases y with
  | one l => exact lt_of_lt_of_le (readLoc_lt l b) (by norm_num)
  | two hi lo w =>
    have hw := h hi lo w rfl
    refine Nat.or_lt_two_pow ?_ (lt_of_lt_of_le (readLoc_lt lo b) (by norm_num))
    rw [Nat.shiftLeft_eq]
    calc readLoc hi b * 2 ^ w < 2 ^ 8 * 2 ^ w := Nat.mul_lt_mul_of_pos_right (readLoc_lt hi b) (by positivity)
      _ ≤ 2 ^ 8 * 2 ^ 8 := Nat.mul_le_mul_left _ (Nat.pow_le_pow_right (by norm_num) hw)
      _ = 2 ^ 16 := by norm_num

theorem upField_lt (f : UpField) (b : Buffer) : upField f b < 2 ^ 16 := by
  refine readLayout_lt _ b fun hi lo w h => ?_
  cases f <;> simp [upLayout] at h <;> omega

theorem downField_lt (f : DownField) (b : Buffer) : downField f b < 2 ^ 16 := by
  refine readLayout_lt _ b fun hi lo w h => ?_
  cases f <;> simp [downLayout] at h; omega

end Sys2Proof
end

