-- ==== Sys2Proof/Laws/Forms.lean ====
section
/-! SUPPORT. What the three forms of a command word accept and what they refuse (spec/30_encoding.md R95,
R102). -/

namespace Sys2Proof

theorem plainForm_ok {f : CwFields} {i j : Instr} :
    plainForm f i = .ok j ↔ f.src = false ∧ f.clk = 0 ∧ f.side = false ∧ i = j := by
  unfold plainForm
  split_ifs <;> simp_all

theorem noArgForm_ok {f : CwFields} {i j : Instr} :
    noArgForm f i = .ok j ↔ f.arg = 0 ∧ f.src = false ∧ f.clk = 0 ∧ f.side = false ∧ i = j := by
  unfold noArgForm
  split_ifs <;> simp_all [plainForm_ok]

theorem convForm_ok {f : CwFields} {c e j : Instr} :
    convForm f c e = .ok j ↔
      (f.src = true ∧ e = j) ∨ (f.src = false ∧ f.clk = 0 ∧ f.side = false ∧ c = j) := by
  unfold convForm
  split_ifs <;> simp_all [plainForm_ok]

theorem plainForm_error {f : CwFields} {i : Instr} :
    (∃ e, plainForm f i = .error e) ↔ f.src = true ∨ f.clk ≠ 0 ∨ f.side = true := by
  unfold plainForm
  split_ifs <;> simp_all

theorem noArgForm_error {f : CwFields} {i : Instr} :
    (∃ e, noArgForm f i = .error e) ↔ f.arg ≠ 0 ∨ f.src = true ∨ f.clk ≠ 0 ∨ f.side = true := by
  unfold noArgForm
  split_ifs <;> simp_all [plainForm_error]

theorem convForm_error {f : CwFields} {c e : Instr} :
    (∃ r, convForm f c e = .error r) ↔ f.src = false ∧ (f.clk ≠ 0 ∨ f.side = true) := by
  unfold convForm
  split_ifs <;> simp_all [plainForm_error]

/-- What decoding fields accepts. -/
theorem decodeFields_ok {f : CwFields} {i : Instr} :
    decodeFields f = .ok i ↔ f.z1 = 0 ∧ f.z2 = 0 ∧ decodeOp f = .ok i := by
  unfold decodeFields
  split_ifs <;> simp_all

end Sys2Proof
end

