-- ==== Sys2Proof/Laws/State.lean ====
section
/-! SUPPORT. What each state update does to each field of State, each by rfl, and what the shared
operations that draw an answer or send a response do to each field. -/

namespace Sys2Proof.Machine

@[simp] theorem setUp_up (b : Buffer) (s : State) : (s.setUp b).up = b := rfl
@[simp] theorem setUp_down (b : Buffer) (s : State) : (s.setUp b).down = s.down := rfl
@[simp] theorem setUp_inited (b : Buffer) (s : State) : (s.setUp b).inited = s.inited := rfl
@[simp] theorem setUp_fsm (b : Buffer) (s : State) : (s.setUp b).fsm = s.fsm := rfl
@[simp] theorem setUp_cmds (b : Buffer) (s : State) : (s.setUp b).cmds = s.cmds := rfl
@[simp] theorem setUp_env (b : Buffer) (s : State) : (s.setUp b).env = s.env := rfl
@[simp] theorem setUp_sched (b : Buffer) (s : State) : (s.setUp b).sched = s.sched := rfl
@[simp] theorem setUp_trace (b : Buffer) (s : State) : (s.setUp b).trace = s.trace := rfl
@[simp] theorem setUp_drawn (b : Buffer) (s : State) : (s.setUp b).drawn = s.drawn := rfl

@[simp] theorem setDown_up (b : Buffer) (s : State) : (s.setDown b).up = s.up := rfl
@[simp] theorem setDown_down (b : Buffer) (s : State) : (s.setDown b).down = b := rfl
@[simp] theorem setDown_inited (b : Buffer) (s : State) : (s.setDown b).inited = s.inited := rfl
@[simp] theorem setDown_fsm (b : Buffer) (s : State) : (s.setDown b).fsm = s.fsm := rfl
@[simp] theorem setDown_cmds (b : Buffer) (s : State) : (s.setDown b).cmds = s.cmds := rfl
@[simp] theorem setDown_env (b : Buffer) (s : State) : (s.setDown b).env = s.env := rfl
@[simp] theorem setDown_sched (b : Buffer) (s : State) : (s.setDown b).sched = s.sched := rfl
@[simp] theorem setDown_trace (b : Buffer) (s : State) : (s.setDown b).trace = s.trace := rfl
@[simp] theorem setDown_drawn (b : Buffer) (s : State) : (s.setDown b).drawn = s.drawn := rfl

@[simp] theorem setInited_up (v : Bool) (s : State) : (s.setInited v).up = s.up := rfl
@[simp] theorem setInited_down (v : Bool) (s : State) : (s.setInited v).down = s.down := rfl
@[simp] theorem setInited_inited (v : Bool) (s : State) : (s.setInited v).inited = v := rfl
@[simp] theorem setInited_fsm (v : Bool) (s : State) : (s.setInited v).fsm = s.fsm := rfl
@[simp] theorem setInited_cmds (v : Bool) (s : State) : (s.setInited v).cmds = s.cmds := rfl
@[simp] theorem setInited_env (v : Bool) (s : State) : (s.setInited v).env = s.env := rfl
@[simp] theorem setInited_sched (v : Bool) (s : State) : (s.setInited v).sched = s.sched := rfl
@[simp] theorem setInited_trace (v : Bool) (s : State) : (s.setInited v).trace = s.trace := rfl
@[simp] theorem setInited_drawn (v : Bool) (s : State) : (s.setInited v).drawn = s.drawn := rfl

@[simp] theorem setFsm_up (f : Fsm) (s : State) : (s.setFsm f).up = s.up := rfl
@[simp] theorem setFsm_down (f : Fsm) (s : State) : (s.setFsm f).down = s.down := rfl
@[simp] theorem setFsm_inited (f : Fsm) (s : State) : (s.setFsm f).inited = s.inited := rfl
@[simp] theorem setFsm_fsm (f : Fsm) (s : State) : (s.setFsm f).fsm = f := rfl
@[simp] theorem setFsm_cmds (f : Fsm) (s : State) : (s.setFsm f).cmds = s.cmds := rfl
@[simp] theorem setFsm_env (f : Fsm) (s : State) : (s.setFsm f).env = s.env := rfl
@[simp] theorem setFsm_sched (f : Fsm) (s : State) : (s.setFsm f).sched = s.sched := rfl
@[simp] theorem setFsm_trace (f : Fsm) (s : State) : (s.setFsm f).trace = s.trace := rfl
@[simp] theorem setFsm_drawn (f : Fsm) (s : State) : (s.setFsm f).drawn = s.drawn := rfl

@[simp] theorem emit_up (e : Event) (s : State) : (s.emit e).up = s.up := rfl
@[simp] theorem emit_down (e : Event) (s : State) : (s.emit e).down = s.down := rfl
@[simp] theorem emit_inited (e : Event) (s : State) : (s.emit e).inited = s.inited := rfl
@[simp] theorem emit_fsm (e : Event) (s : State) : (s.emit e).fsm = s.fsm := rfl
@[simp] theorem emit_cmds (e : Event) (s : State) : (s.emit e).cmds = s.cmds := rfl
@[simp] theorem emit_env (e : Event) (s : State) : (s.emit e).env = s.env := rfl
@[simp] theorem emit_sched (e : Event) (s : State) : (s.emit e).sched = s.sched := rfl
@[simp] theorem emit_trace (e : Event) (s : State) : (s.emit e).trace = s.trace ++ [e] := rfl
@[simp] theorem emit_drawn (e : Event) (s : State) : (s.emit e).drawn = s.drawn := rfl

/-! Drawing an answer changes the environment's answers to come, and nothing else. -/

@[simp] theorem drawAnswer_up (s : State) : (drawAnswer s).2.up = s.up := by
  unfold drawAnswer; split <;> rfl
@[simp] theorem drawAnswer_down (s : State) : (drawAnswer s).2.down = s.down := by
  unfold drawAnswer; split <;> rfl
@[simp] theorem drawAnswer_inited (s : State) : (drawAnswer s).2.inited = s.inited := by
  unfold drawAnswer; split <;> rfl
@[simp] theorem drawAnswer_fsm (s : State) : (drawAnswer s).2.fsm = s.fsm := by
  unfold drawAnswer; split <;> rfl
@[simp] theorem drawAnswer_cmds (s : State) : (drawAnswer s).2.cmds = s.cmds := by
  unfold drawAnswer; split <;> rfl
@[simp] theorem drawAnswer_sched (s : State) : (drawAnswer s).2.sched = s.sched := by
  unfold drawAnswer; split <;> rfl
@[simp] theorem drawAnswer_trace (s : State) : (drawAnswer s).2.trace = s.trace := by
  unfold drawAnswer; split <;> rfl

/-- Where the environment's answers to come are listed, the first of them is drawn. -/
theorem drawAnswer_cons {s : State} {a : Answer} {rest : List Answer} (h : s.env = a :: rest) :
    drawAnswer s = (a, { s with env := rest }) := by
  unfold drawAnswer; simp [h]

/-- Where they are used up, a free value is drawn. -/
theorem drawAnswer_nil {s : State} (h : s.env = []) :
    drawAnswer s = (Config.freeAnswer s.drawn, { s with drawn := s.drawn + 1 }) := by
  unfold drawAnswer; simp [h]

/-- What drawing an answer leaves: all but `env` and `drawn`. -/
theorem drawAnswer_frame (s : State) :
    (drawAnswer s).2 = { s with env := (drawAnswer s).2.env, drawn := (drawAnswer s).2.drawn } := by
  unfold drawAnswer; split <;> rfl

/-! Using up several answers changes the same two fields, and nothing else. -/

@[simp] theorem drawMany_zero (s : State) : drawMany 0 s = s := rfl
@[simp] theorem drawMany_succ (n : Nat) (s : State) : drawMany (n + 1) s = drawMany n (drawAnswer s).2 := rfl

theorem drawMany_frame (n : Nat) (s : State) :
    drawMany n s = { s with env := (drawMany n s).env, drawn := (drawMany n s).drawn } := by
  induction n generalizing s with
  | zero => rfl
  | succ n ih => rw [drawMany_succ, ih, drawAnswer_frame s]

/-- The answers left are the listed ones after the first `n`. -/
theorem drawMany_env (n : Nat) (s : State) : (drawMany n s).env = s.env.drop n := by
  induction n generalizing s with
  | zero => rfl
  | succ n ih =>
    rw [drawMany_succ, ih]
    unfold drawAnswer
    cases s.env <;> simp

/-! Forgetting the buffers. -/

@[simp] theorem forgetBuffers_inited (s : State) : (forgetBuffers s).inited = s.inited := rfl
@[simp] theorem forgetBuffers_fsm (s : State) : (forgetBuffers s).fsm = s.fsm := rfl
@[simp] theorem forgetBuffers_cmds (s : State) : (forgetBuffers s).cmds = s.cmds := rfl
@[simp] theorem forgetBuffers_env (s : State) : (forgetBuffers s).env = s.env := rfl
@[simp] theorem forgetBuffers_sched (s : State) : (forgetBuffers s).sched = s.sched := rfl
@[simp] theorem forgetBuffers_trace (s : State) : (forgetBuffers s).trace = s.trace := rfl

end Sys2Proof.Machine
end

