-- ==== Sys2Proof/Laws/Ops.lean ====
section
/-! SUPPORT. For each shared operation, everything it can do, said once. -/

namespace Sys2Proof.Machine

/-! Drawing an answer goes with every update that leaves `env` and `drawn` alone. -/

theorem drawAnswer_setUp (b : Buffer) (s : State) :
    drawAnswer (s.setUp b) = ((drawAnswer s).1, (drawAnswer s).2.setUp b) := by
  unfold drawAnswer State.setUp
  cases s.env <;> rfl

theorem drawAnswer_emit (e : Event) (s : State) :
    drawAnswer (s.emit e) = ((drawAnswer s).1, (drawAnswer s).2.emit e) := by
  unfold drawAnswer State.emit
  cases s.env <;> rfl

/-! Errors and answers. -/

/-- An error is one response and no other change (R261). -/
theorem raise_eq (e : Err) (s : State) : raise e s = { s with trace := s.trace ++ [.response (errWord e)] } := rfl

theorem errWord_invalidHandle : errWord .invalidHandle = 0x2000000000000000 := rfl
theorem errWord_notInitialized : errWord .notInitialized = 0x4000000000000000 := rfl
theorem errWord_outOfRange : errWord .outOfRange = 0x8000000000000000 := rfl
theorem errWord_invalidClock : errWord .invalidClock = 0xA000000000000000 := rfl
theorem errWord_illegalCommand : errWord .illegalCommand = 0xE000000000000000 := rfl

/-- A plain OK response is its data. -/
theorem respWord_ok (d : BitVec 40) : respWord 0 0 0 d = d.setWidth 64 := by
  have e : respWord 0 0 0 d = 0#24 ++ d := by simp [respWord]
  apply BitVec.eq_of_toNat_eq
  rw [e, BitVec.toNat_append]
  have := d.isLt
  simp
  omega

theorem respondOk_eq (d : BitVec 40) (s : State) :
    respondOk d s = { s with trace := s.trace ++ [.response (d.setWidth 64)] } := by
  rw [← respWord_ok]; rfl

/-! The checks (R252 to R256). -/

@[simp] theorem withHandle_true (s b : State) : withHandle true s b = b := rfl
@[simp] theorem withHandle_false (s b : State) : withHandle false s b = raise .invalidHandle s := rfl

theorem withInit_of_inited {s : State} (h : s.inited = true) (b : State) : withInit s b = b := by
  simp [withInit, h]

theorem withInit_of_not_inited {s : State} (h : s.inited = false) (b : State) :
    withInit s b = raise .notInitialized s := by
  simp [withInit, h]

/-- The three ways out of the checks every gated command begins with. -/
theorem gate_cases (hv : Bool) (s b : State) :
    (hv = false ∧ gate hv s b = raise .invalidHandle s) ∨
    (hv = true ∧ s.inited = false ∧ gate hv s b = raise .notInitialized s) ∨
    (hv = true ∧ s.inited = true ∧ gate hv s b = b) := by
  cases hv
  · exact .inl ⟨rfl, rfl⟩
  · cases h : s.inited
    · exact .inr (.inl ⟨rfl, rfl, by simp [gate, withInit, h]⟩)
    · exact .inr (.inr ⟨rfl, rfl, by simp [gate, withInit, h]⟩)

@[simp] theorem inRange_true (s b : State) : inRange true s b = b := rfl
@[simp] theorem inRange_false (s b : State) : inRange false s b = raise .outOfRange s := rfl

/-! Bus transactions: the answer drawn, and one event that shows it. -/

theorem busAcquire_eq (s : State) :
    busAcquire s = (ackOf (drawAnswer s).1, (drawAnswer s).2.emit (.busAcquire (ackOf (drawAnswer s).1))) := rfl

theorem busRelease_eq (s : State) :
    busRelease s = (ackOf (drawAnswer s).1, (drawAnswer s).2.emit (.busRelease (ackOf (drawAnswer s).1))) := rfl

theorem memWriteUp_eq (s : State) :
    memWriteUp s = (ackOf (drawAnswer s).1,
      (drawAnswer s).2.emit (.memWrite Config.devAddr s.up (ackOf (drawAnswer s).1))) := rfl

theorem memRead_eq (s : State) :
    memRead s = ((drawAnswer s).1, (drawAnswer s).2.emit (.memRead Config.devAddr (drawAnswer s).1)) := rfl

/-! Whose turn it is. -/

theorem step_of_turn {s : State} {t : Turn} {q : List Turn} (h : s.sched = t :: q) :
    step s = agentStep t { s with sched := q } := by
  simp [step, turn, h]

/-- Without a schedule and with FSM = Idle the turn is the host's. -/
theorem step_of_idle {s : State} (h : s.sched = []) (hf : s.fsm = .idle) : step s = hostStep s := by
  simp [step, turn, h, hf, agentStep]

/-- Without a schedule, in a search, and with no word that would be accepted, it is the controller's. -/
theorem step_of_search {s : State} (h : s.sched = []) (hf : s.fsm ≠ .idle) (hr : hostReady s = false) :
    step s = .next (controllerStep s) := by
  simp [step, turn, h, hf, hr, agentStep]

/-- Whatever a reset drops, the command's own state changes go with it: what is left. -/
theorem dropCommand_eq (done : Nat) (s t : State) :
    dropCommand done s t = hardwareReset { s with
      env := s.env.drop (((eventsBetween s t).dropLast.take done).countP isBusEvent)
      drawn := (drawMany (((eventsBetween s t).dropLast.take done).countP isBusEvent) s).drawn
      trace := s.trace ++ (eventsBetween s t).dropLast.take done } := by
  have h := drawMany_frame (((eventsBetween s t).dropLast.take done).countP isBusEvent) s
  rw [drawMany_env] at h
  unfold dropCommand
  dsimp only
  rw [h]

/-- Where the record has only grown, the events between are what it grew by. -/
theorem eventsBetween_of_append {s t : State} {evs : List Event} (h : t.trace = s.trace ++ evs) :
    eventsBetween s t = evs := by
  simp [eventsBetween, h]

/-- The ways a step can go: nothing to do or held, a malformed word, a command, the controller, a reset, a
reset inside a command; each on the state `r` with the turn taken. -/
theorem step_cases (s : State) :
    ∃ r : State, r = (turn s).2 ∧
      (step s = .next r ∨
        (∃ cw rest, r.cmds = cw :: rest ∧ accepts r.fsm cw = true ∧
          ((∃ e, decode cw = .error e ∧ step s = .next (raise .illegalCommand { r with cmds := rest })) ∨
            ∃ i, decode cw = .ok i ∧ step s = exec i { r with cmds := rest })) ∨
        step s = .next (controllerStep r) ∨ step s = .next (hardwareReset r) ∨
        ∃ done, step s = resetDuringStep done r) := by
  refine ⟨_, rfl, ?_⟩
  unfold step
  cases (turn s).1 with
  | host =>
    simp only [agentStep, hostStep]
    cases hc : (turn s).2.cmds with
    | nil => exact .inl rfl
    | cons cw rest =>
      cases ha : accepts (turn s).2.fsm cw with
      | false => exact .inl (by simp [ha])
      | true =>
        refine .inr (.inl ⟨cw, rest, rfl, ha, ?_⟩)
        simp only [ha, if_true, execWord]
        cases hd : decode cw with
        | error e => exact .inl ⟨e, rfl, rfl⟩
        | ok i => exact .inr ⟨i, rfl, rfl⟩
  | controller => exact .inr (.inr (.inl rfl))
  | reset => exact .inr (.inr (.inr (.inl rfl)))
  | resetDuring done => exact .inr (.inr (.inr (.inr ⟨done, rfl⟩)))

/-- The two ways a reset inside a command can go: there is none in progress, or it is dropped. -/
theorem resetDuringStep_cases (done : Nat) (s : State) :
    resetDuringStep done s = .next (hardwareReset s) ∨
      ∃ cw rest, s.cmds = cw :: rest ∧ accepts s.fsm cw = true ∧
        ((∃ t, execWord cw { s with cmds := rest } = .next t ∧
            resetDuringStep done s = .next (dropCommand done { s with cmds := rest } t)) ∨
          (∃ r, execWord cw { s with cmds := rest } = .fault r ∧ resetDuringStep done s = .fault r) ∨
          ∃ r, execWord cw { s with cmds := rest } = .refused r ∧ resetDuringStep done s = .refused r) := by
  unfold resetDuringStep
  cases hc : s.cmds with
  | nil => exact .inl rfl
  | cons cw rest =>
    cases ha : accepts s.fsm cw with
    | false => exact .inl (by simp [ha])
    | true =>
      refine .inr ⟨cw, rest, rfl, ha, ?_⟩
      cases he : execWord cw { s with cmds := rest } with
      | next t => exact .inl ⟨t, rfl, by simp [ha, he]⟩
      | fault r => exact .inr (.inl ⟨r, rfl, by simp [ha, he]⟩)
      | refused r => exact .inr (.inr ⟨r, rfl, by simp [ha, he]⟩)

/-- Taking a turn changes only the schedule and the count of free values. -/
theorem turn_frame (s : State) :
    (turn s).2 = { s with sched := s.sched.tail, drawn := (turn s).2.drawn } := by
  unfold turn
  split
  · rename_i h; simp [h]
  · rename_i h
    have e : s = { s with sched := s.sched.tail } := by rw [h]; cases s; simp_all
    split_ifs <;> first | exact e | (rw [h]; cases s; simp_all)

end Sys2Proof.Machine
end

