-- ==== Sys2Proof/Laws/PerInstr.lean ====
section
/-! SUPPORT. One lemma per command, by family (LAWS.json). MustBeZero: the word of a command has zeros in `z1` and
`z2`, and zeros in `clk` and `side` unless `src` is 1 (spec/30_encoding.md R95). -/

namespace Sys2Proof.Laws.MustBeZero

/-- The fields of the command's word that must be zero are zero (R95). -/
def Statement (i : Instr) : Prop :=
  (encodeFields i).z1 = 0 ∧ (encodeFields i).z2 = 0 ∧
    ((encodeFields i).src = false → (encodeFields i).clk = 0 ∧ (encodeFields i).side = false)

theorem init (hv : Bool) : Statement (.init hv) := ⟨rfl, rfl, fun _ => ⟨rfl, rfl⟩⟩
theorem deinit (hv : Bool) : Statement (.deinit hv) := ⟨rfl, rfl, fun _ => ⟨rfl, rfl⟩⟩
theorem commit (hv : Bool) : Statement (.commit hv) := ⟨rfl, rfl, fun _ => ⟨rfl, rfl⟩⟩
theorem refresh (hv : Bool) : Statement (.refresh hv) := ⟨rfl, rfl, fun _ => ⟨rfl, rfl⟩⟩
theorem info (hv : Bool) : Statement (.info hv) := ⟨rfl, rfl, fun _ => ⟨rfl, rfl⟩⟩
theorem f2p (hv : Bool) (fHz : Int) : Statement (.f2p hv fHz) := ⟨rfl, rfl, fun _ => ⟨rfl, rfl⟩⟩
theorem f2px (hv : Bool) (fHz : Int) (clk : Nat) (side : Bool) : Statement (.f2px hv fHz clk side) := ⟨rfl, rfl, fun h => nomatch h⟩
theorem p2f (hv : Bool) (pll : Nat) : Statement (.p2f hv pll) := ⟨rfl, rfl, fun _ => ⟨rfl, rfl⟩⟩
theorem p2fx (hv : Bool) (pll : Nat) (clk : Nat) (side : Bool) : Statement (.p2fx hv pll clk side) := ⟨rfl, rfl, fun h => nomatch h⟩
theorem search (hv : Bool) (dir : Nat) : Statement (.search hv dir) := ⟨rfl, rfl, fun _ => ⟨rfl, rfl⟩⟩
theorem abort (hv : Bool) : Statement (.abort hv) := ⟨rfl, rfl, fun _ => ⟨rfl, rfl⟩⟩
theorem setMute (hv : Bool) (v : Nat) : Statement (.setMute hv v) := ⟨rfl, rfl, fun _ => ⟨rfl, rfl⟩⟩
theorem setSmode (hv : Bool) (v : Nat) : Statement (.setSmode hv v) := ⟨rfl, rfl, fun _ => ⟨rfl, rfl⟩⟩
theorem setPll (hv : Bool) (v : Nat) : Statement (.setPll hv v) := ⟨rfl, rfl, fun _ => ⟨rfl, rfl⟩⟩
theorem setSdir (hv : Bool) (v : Nat) : Statement (.setSdir hv v) := ⟨rfl, rfl, fun _ => ⟨rfl, rfl⟩⟩
theorem setSsl (hv : Bool) (v : Nat) : Statement (.setSsl hv v) := ⟨rfl, rfl, fun _ => ⟨rfl, rfl⟩⟩
theorem setInj (hv : Bool) (v : Nat) : Statement (.setInj hv v) := ⟨rfl, rfl, fun _ => ⟨rfl, rfl⟩⟩
theorem setMono (hv : Bool) (v : Nat) : Statement (.setMono hv v) := ⟨rfl, rfl, fun _ => ⟨rfl, rfl⟩⟩
theorem setRmute (hv : Bool) (v : Nat) : Statement (.setRmute hv v) := ⟨rfl, rfl, fun _ => ⟨rfl, rfl⟩⟩
theorem setLmute (hv : Bool) (v : Nat) : Statement (.setLmute hv v) := ⟨rfl, rfl, fun _ => ⟨rfl, rfl⟩⟩
theorem setPort1 (hv : Bool) (v : Nat) : Statement (.setPort1 hv v) := ⟨rfl, rfl, fun _ => ⟨rfl, rfl⟩⟩
theorem setPort2 (hv : Bool) (v : Nat) : Statement (.setPort2 hv v) := ⟨rfl, rfl, fun _ => ⟨rfl, rfl⟩⟩
theorem setStby (hv : Bool) (v : Nat) : Statement (.setStby hv v) := ⟨rfl, rfl, fun _ => ⟨rfl, rfl⟩⟩
theorem setBand (hv : Bool) (v : Nat) : Statement (.setBand hv v) := ⟨rfl, rfl, fun _ => ⟨rfl, rfl⟩⟩
theorem setClk (hv : Bool) (v : Nat) : Statement (.setClk hv v) := ⟨rfl, rfl, fun _ => ⟨rfl, rfl⟩⟩
theorem setSoftmute (hv : Bool) (v : Nat) : Statement (.setSoftmute hv v) := ⟨rfl, rfl, fun _ => ⟨rfl, rfl⟩⟩
theorem setHcc (hv : Bool) (v : Nat) : Statement (.setHcc hv v) := ⟨rfl, rfl, fun _ => ⟨rfl, rfl⟩⟩
theorem setSnc (hv : Bool) (v : Nat) : Statement (.setSnc hv v) := ⟨rfl, rfl, fun _ => ⟨rfl, rfl⟩⟩
theorem setP1ind (hv : Bool) (v : Nat) : Statement (.setP1ind hv v) := ⟨rfl, rfl, fun _ => ⟨rfl, rfl⟩⟩
theorem setDeemph (hv : Bool) (v : Nat) : Statement (.setDeemph hv v) := ⟨rfl, rfl, fun _ => ⟨rfl, rfl⟩⟩
theorem getMute (hv : Bool) : Statement (.getMute hv) := ⟨rfl, rfl, fun _ => ⟨rfl, rfl⟩⟩
theorem getSmode (hv : Bool) : Statement (.getSmode hv) := ⟨rfl, rfl, fun _ => ⟨rfl, rfl⟩⟩
theorem getPll (hv : Bool) : Statement (.getPll hv) := ⟨rfl, rfl, fun _ => ⟨rfl, rfl⟩⟩
theorem getSdir (hv : Bool) : Statement (.getSdir hv) := ⟨rfl, rfl, fun _ => ⟨rfl, rfl⟩⟩
theorem getSsl (hv : Bool) : Statement (.getSsl hv) := ⟨rfl, rfl, fun _ => ⟨rfl, rfl⟩⟩
theorem getInj (hv : Bool) : Statement (.getInj hv) := ⟨rfl, rfl, fun _ => ⟨rfl, rfl⟩⟩
theorem getMono (hv : Bool) : Statement (.getMono hv) := ⟨rfl, rfl, fun _ => ⟨rfl, rfl⟩⟩
theorem getRmute (hv : Bool) : Statement (.getRmute hv) := ⟨rfl, rfl, fun _ => ⟨rfl, rfl⟩⟩
theorem getLmute (hv : Bool) : Statement (.getLmute hv) := ⟨rfl, rfl, fun _ => ⟨rfl, rfl⟩⟩
theorem getPort1 (hv : Bool) : Statement (.getPort1 hv) := ⟨rfl, rfl, fun _ => ⟨rfl, rfl⟩⟩
theorem getPort2 (hv : Bool) : Statement (.getPort2 hv) := ⟨rfl, rfl, fun _ => ⟨rfl, rfl⟩⟩
theorem getStby (hv : Bool) : Statement (.getStby hv) := ⟨rfl, rfl, fun _ => ⟨rfl, rfl⟩⟩
theorem getBand (hv : Bool) : Statement (.getBand hv) := ⟨rfl, rfl, fun _ => ⟨rfl, rfl⟩⟩
theorem getClk (hv : Bool) : Statement (.getClk hv) := ⟨rfl, rfl, fun _ => ⟨rfl, rfl⟩⟩
theorem getSoftmute (hv : Bool) : Statement (.getSoftmute hv) := ⟨rfl, rfl, fun _ => ⟨rfl, rfl⟩⟩
theorem getHcc (hv : Bool) : Statement (.getHcc hv) := ⟨rfl, rfl, fun _ => ⟨rfl, rfl⟩⟩
theorem getSnc (hv : Bool) : Statement (.getSnc hv) := ⟨rfl, rfl, fun _ => ⟨rfl, rfl⟩⟩
theorem getP1ind (hv : Bool) : Statement (.getP1ind hv) := ⟨rfl, rfl, fun _ => ⟨rfl, rfl⟩⟩
theorem getDeemph (hv : Bool) : Statement (.getDeemph hv) := ⟨rfl, rfl, fun _ => ⟨rfl, rfl⟩⟩
theorem getdReady (hv : Bool) : Statement (.getdReady hv) := ⟨rfl, rfl, fun _ => ⟨rfl, rfl⟩⟩
theorem getdBlimit (hv : Bool) : Statement (.getdBlimit hv) := ⟨rfl, rfl, fun _ => ⟨rfl, rfl⟩⟩
theorem getdSpll (hv : Bool) : Statement (.getdSpll hv) := ⟨rfl, rfl, fun _ => ⟨rfl, rfl⟩⟩
theorem getdIfc (hv : Bool) : Statement (.getdIfc hv) := ⟨rfl, rfl, fun _ => ⟨rfl, rfl⟩⟩
theorem getdRxstereo (hv : Bool) : Statement (.getdRxstereo hv) := ⟨rfl, rfl, fun _ => ⟨rfl, rfl⟩⟩
theorem getdLevel (hv : Bool) : Statement (.getdLevel hv) := ⟨rfl, rfl, fun _ => ⟨rfl, rfl⟩⟩

end Sys2Proof.Laws.MustBeZero
end

