-- ==== Sys2Proof/Laws/Responses.lean ====
section
/-! SUPPORT. The fields of a response word (spec/30_encoding.md R98), and that every response TRB forms has the
form of R98 to R100. -/

namespace Sys2Proof.Machine

/-- A bit of a response word is the bit of the field that holds it. -/
theorem getLsbD_respWord (st : BitVec 3) (o : BitVec 2) (e : Byte) (d : BitVec 40) (i : Nat) :
    (respWord st o e d).getLsbD i =
      if i < 40 then d.getLsbD i
      else if i < 48 then false
      else if i < 56 then e.getLsbD (i - 48)
      else if i < 59 then false
      else if i < 61 then o.getLsbD (i - 59)
      else st.getLsbD (i - 61) := by
  simp only [respWord, BitVec.getLsbD_append, Nat.sub_sub]
  split_ifs <;> first | rfl | omega | simp

/-- Every field of a response word reads back. -/
theorem respWord_fields (st : BitVec 3) (o : BitVec 2) (e : Byte) (d : BitVec 40) :
    (respWord st o e d).extractLsb' 61 3 = st ∧ (respWord st o e d).extractLsb' 59 2 = o ∧
      (respWord st o e d).extractLsb' 56 3 = 0 ∧ (respWord st o e d).extractLsb' 48 8 = e ∧
      (respWord st o e d).extractLsb' 40 8 = 0 ∧ (respWord st o e d).extractLsb' 0 40 = d := by
  have part (k n : Nat) (x : BitVec n)
      (h : ∀ i < n, (respWord st o e d).getLsbD (k + i) = x.getLsbD i) :
      (respWord st o e d).extractLsb' k n = x := by
    apply BitVec.eq_of_getLsbD_eq
    intro i hi
    simp only [BitVec.getLsbD_extractLsb', hi, decide_true, Bool.true_and, h i hi]
  refine ⟨part 61 3 st ?_, part 59 2 o ?_, part 56 3 0 ?_, part 48 8 e ?_, part 40 8 0 ?_, part 0 40 d ?_⟩
  all_goals
    intro i hi
    rw [getLsbD_respWord]
    split_ifs <;> first | omega | (congr 1; omega) | simp

/-- Every error's response has the form of R98. -/
theorem respOk_errWord (e : Err) : respOk (errWord e) = true := by
  obtain ⟨h1, h2, h3, h4, h5, h6⟩ := respWord_fields e.code 0 e.ioerr 0
  simp only [respOk, errWord, h1, h2, h3, h4, h5, h6]
  cases e <;> simp [Err.code, Err.ioerr]

/-- Every OK response has the form of R98. -/
theorem respOk_respWord (o : BitVec 2) (d : BitVec 40) : respOk (respWord 0 o 0 d) = true := by
  obtain ⟨h1, h2, h3, h4, h5, h6⟩ := respWord_fields 0 o 0 d
  simp only [respOk, h1, h2, h3, h4, h5, h6]
  simp

end Sys2Proof.Machine
end

