-- ==== Sys2Proof/Laws/Search.lean ====
section
/-! SUPPORT. What a step of the search controller can do, by the value of FSM, and running several steps. -/

namespace Sys2Proof.Machine

@[simp] theorem controllerStep_idle {s : State} (h : s.fsm = .idle) : controllerStep s = s := by
  simp [controllerStep, h]

theorem controllerStep_committed {s : State} (h : s.fsm = .committed) : controllerStep s = s.setFsm .polling := by
  simp [controllerStep, h]

theorem controllerStep_polling {s : State} (h : s.fsm = .polling) : controllerStep s = poll s := by
  simp [controllerStep, h]

theorem controllerStep_found {s : State} (h : s.fsm = .found) : controllerStep s = latchFound s := by
  simp [controllerStep, h]

theorem controllerStep_bandLimit {s : State} (h : s.fsm = .bandLimit) : controllerStep s = reportBandLimit s := by
  simp [controllerStep, h]

/-- The four ways a poll can go (R225, R226). -/
theorem poll_cases (s : State) :
    (∃ e, (drawAnswer s).1 = .fail e ∧
      poll s = (raise (.transportFailure e) (memRead s).2).setFsm .idle) ∨
    ∃ b, (drawAnswer s).1 = .ok b ∧
      ((readyFlag b = false ∧ poll s = sleepPoll ((memRead s).2.setDown b)) ∨
        (readyFlag b = true ∧ blimitFlag b = true ∧ poll s = ((memRead s).2.setDown b).setFsm .bandLimit) ∨
        (readyFlag b = true ∧ blimitFlag b = false ∧ poll s = ((memRead s).2.setDown b).setFsm .found)) := by
  cases h : (drawAnswer s).1 with
  | fail e => exact .inl ⟨e, rfl, by simp [poll, memRead, h]⟩
  | ok b =>
    refine .inr ⟨b, rfl, ?_⟩
    cases hr : readyFlag b <;> cases hb : blimitFlag b <;> simp [poll, memRead, h, examineDown, hr, hb]

theorem runSteps_succ {s t : State} (k : Nat) (h : step s = .next t) : runSteps (k + 1) s = runSteps k t := by
  simp [runSteps, h]

/-- Steps in a row. -/
theorem runSteps_add {s t : State} (j k : Nat) (h : runSteps j s = .next t) :
    runSteps (j + k) s = runSteps k t := by
  induction j generalizing s with
  | zero =>
    obtain rfl : s = t := by simpa [runSteps] using h
    simp
  | succ n ih =>
    rw [show n + 1 + k = (n + k) + 1 by omega]
    simp only [runSteps] at h ⊢
    cases hs : step s <;> simp only [hs] at h ⊢
    · exact ih h
    · cases h
    · cases h

end Sys2Proof.Machine
end

