-- ==== Sys2Proof/Laws/Sound.lean ====
section
/-! SUPPORT. Each state update and shared operation keeps the invariant SoundState, under the condition each needs. -/

namespace Sys2Proof.Machine

/-- No field write touches the unassigned bits of byte 4 (R27). -/
theorem setUpField_unassigned (f : UpField) (v : Nat) (b : Buffer) :
    (setUpField f v b).b4 &&& 0x3F#8 = b.b4 &&& 0x3F#8 := by
  have keep (x y m : Byte) (h : m &&& 0x3F#8 = 0#8) : ((x &&& ~~~m) ||| (y &&& m)) &&& 0x3F#8 = x &&& 0x3F#8 := by
    apply BitVec.eq_of_getLsbD_eq
    intro i hi
    have hm := congrArg (·.getLsbD i) h
    simp only [BitVec.getLsbD_and, BitVec.getLsbD_zero] at hm
    simp only [BitVec.getLsbD_and, BitVec.getLsbD_or, BitVec.getLsbD_not, hi, decide_true, Bool.true_and]
    revert hm
    cases m.getLsbD i <;> cases (0x3F#8).getLsbD i <;> simp
  cases f <;> first
    | rfl
    | exact keep _ _ 0x40 rfl
    | exact keep _ _ 0x80 rfl

theorem SoundState.emit {s : State} (h : SoundState s) {e : Event} (he : EventOk e) : SoundState (s.emit e) where
  searchInited := h.searchInited
  unassigned := h.unassigned
  events := by
    intro x hx
    rcases List.mem_append.1 hx with hx | hx
    · exact h.events x hx
    · rw [List.mem_singleton.1 hx]; exact he

theorem SoundState.setUp {s : State} (h : SoundState s) {b : Buffer}
    (hb : b.b4 &&& 0x3F#8 = s.up.b4 &&& 0x3F#8) : SoundState (s.setUp b) where
  searchInited := h.searchInited
  unassigned := fun hi => hb.trans (h.unassigned hi)
  events := h.events

theorem SoundState.setDown {s : State} (h : SoundState s) (b : Buffer) : SoundState (s.setDown b) :=
  ⟨h.searchInited, h.unassigned, h.events⟩

theorem SoundState.setFsm {s : State} (h : SoundState s) {f : Fsm} (hf : f ≠ .idle → s.inited = true) :
    SoundState (s.setFsm f) :=
  ⟨hf, h.unassigned, h.events⟩

theorem SoundState.draw {s : State} (h : SoundState s) : SoundState (drawAnswer s).2 where
  searchInited := by simpa using h.searchInited
  unassigned := by simpa using h.unassigned
  events := by simpa using h.events

theorem SoundState.raise {s : State} (h : SoundState s) (e : Err) : SoundState (raise e s) :=
  h.emit (respOk_errWord e)

theorem SoundState.respondOutcome {s : State} (h : SoundState s) (o : BitVec 2) (d : BitVec 40) :
    SoundState (respondOutcome o d s) :=
  h.emit (respOk_respWord o d)

theorem SoundState.respondOk {s : State} (h : SoundState s) (d : BitVec 40) : SoundState (respondOk d s) :=
  h.respondOutcome _ d

theorem SoundState.busAcquire {s : State} (h : SoundState s) : SoundState (busAcquire s).2 := h.draw.emit trivial

theorem SoundState.busRelease {s : State} (h : SoundState s) : SoundState (busRelease s).2 := h.draw.emit trivial

theorem SoundState.memWriteUp {s : State} (h : SoundState s) : SoundState (memWriteUp s).2 := h.draw.emit rfl

theorem SoundState.memRead {s : State} (h : SoundState s) : SoundState (memRead s).2 := h.draw.emit rfl

/-- A reset meets it whatever the buffers were. -/
theorem SoundState.hardwareReset {s : State} (h : SoundState s) : SoundState (hardwareReset s) :=
  SoundState.emit (s := ((forgetBuffers s).setInited false).setFsm .idle)
    ⟨fun hx => absurd rfl hx, fun hx => Bool.noConfusion hx, h.events⟩ trivial

/-- A command dropped by a reset leaves it, if the command left alone would have. -/
theorem SoundState.dropCommand {s t : State} (h : SoundState s) (ht : SoundState t) (done : Nat) :
    SoundState (dropCommand done s t) := by
  rw [dropCommand_eq]
  refine SoundState.hardwareReset ⟨h.searchInited, h.unassigned, fun e he => ?_⟩
  rcases List.mem_append.1 he with he | he
  · exact h.events e he
  · exact ht.events e (List.mem_of_mem_drop (List.mem_of_mem_dropLast (List.mem_of_mem_take he)))

/-- A gated command keeps it if its body does on an initialized handle. -/
theorem SoundState.gate {s : State} (h : SoundState s) (hv : Bool) {b : State}
    (hb : s.inited = true → SoundState b) : SoundState (gate hv s b) := by
  rcases gate_cases hv s b with ⟨-, e⟩ | ⟨-, -, e⟩ | ⟨-, hi, e⟩ <;> rw [e]
  · exact h.raise _
  · exact h.raise _
  · exact hb hi

theorem SoundState.inRange {s : State} (h : SoundState s) (legal : Bool) {b : State} (hb : SoundState b) :
    SoundState (inRange legal s b) := by
  cases legal
  · exact h.raise _
  · exact hb

end Sys2Proof.Machine
end

