-- ==== Sys2Proof/Laws/Words.lean ====
section
/-! SUPPORT. Packing and unpacking a command word are inverse to each other (spec/30_encoding.md R95). -/

namespace Sys2Proof

/-- A bit of a packed word is the bit of the field that holds it. -/
theorem getLsbD_packCw (f : CwFields) (i : Nat) :
    (packCw f).getLsbD i =
      if i < 40 then f.arg.getLsbD i
      else if i < 44 then f.z2.getLsbD (i - 40)
      else if i < 45 then (BitVec.ofBool f.side).getLsbD (i - 44)
      else if i < 47 then f.clk.getLsbD (i - 45)
      else if i < 48 then (BitVec.ofBool f.src).getLsbD (i - 47)
      else if i < 56 then f.z1.getLsbD (i - 48)
      else if i < 63 then f.op.getLsbD (i - 56)
      else (BitVec.ofBool f.hv).getLsbD (i - 63) := by
  simp only [packCw, BitVec.getLsbD_append, Nat.sub_sub]
  split_ifs <;> first | rfl | omega

theorem unpackCw_packCw (f : CwFields) : unpackCw (packCw f) = f := by
  have low (n : Nat) (k : Nat) (x : BitVec n)
      (h : ∀ i < n, (packCw f).getLsbD (k + i) = x.getLsbD i) : (packCw f).extractLsb' k n = x := by
    apply BitVec.eq_of_getLsbD_eq
    intro i hi
    simp only [BitVec.getLsbD_extractLsb', hi, decide_true, Bool.true_and, h i hi]
  obtain ⟨hv, op, z1, src, clk, side, z2, arg⟩ := f
  simp only [unpackCw, CwFields.mk.injEq]
  refine ⟨?_, low 7 56 op ?_, low 8 48 z1 ?_, ?_, low 2 45 clk ?_, ?_, low 4 40 z2 ?_, low 40 0 arg ?_⟩
  all_goals
    first
      | (intro i hi; rw [getLsbD_packCw]; split_ifs <;> first | omega | (congr 1; omega))
      | (rw [getLsbD_packCw]; simp)

theorem packCw_unpackCw (w : Word) : packCw (unpackCw w) = w := by
  have part {i : Nat} (k n : Nat) (h1 : k ≤ i) (h2 : i - k < n) :
      (w.extractLsb' k n).getLsbD (i - k) = w.getLsbD i := by
    rw [BitVec.getLsbD_extractLsb', decide_eq_true h2, Nat.add_sub_cancel' h1, Bool.true_and]
  have bit {i : Nat} (k : Nat) (h : i = k) : (BitVec.ofBool (w.getLsbD k)).getLsbD (i - k) = w.getLsbD i := by
    subst h; simp
  apply BitVec.eq_of_getLsbD_eq
  intro i hi
  rw [getLsbD_packCw]
  simp only [unpackCw]
  split_ifs
  · exact part 0 40 (by omega) (by omega)
  · exact part 40 4 (by omega) (by omega)
  · exact bit 44 (by omega)
  · exact part 45 2 (by omega) (by omega)
  · exact bit 47 (by omega)
  · exact part 48 8 (by omega) (by omega)
  · exact part 56 7 (by omega) (by omega)
  · exact bit 63 (by omega)

/-- A part of a word is zero exactly when each of its bits is. -/
theorem extract_eq_zero_iff (cw : Word) (k n : Nat) :
    cw.extractLsb' k n = 0 ↔ ∀ i, k ≤ i → i < k + n → cw.getLsbD i = false := by
  constructor
  · intro h i h1 h2
    have := congrArg (·.getLsbD (i - k)) h
    simpa [show i - k < n by omega, Nat.add_sub_cancel' h1] using this
  · intro h
    apply BitVec.eq_of_getLsbD_eq
    intro i hi
    simp [hi, h (k + i) (by omega) (by omega)]

/-- Bits 55 to 40 are zero exactly when `z1`, `src`, `clk`, `side` and `z2` are. -/
theorem middle_zero_iff (cw : Word) :
    cw.extractLsb' 40 16 = 0 ↔ (unpackCw cw).z1 = 0 ∧ (unpackCw cw).src = false ∧ (unpackCw cw).clk = 0 ∧
      (unpackCw cw).side = false ∧ (unpackCw cw).z2 = 0 := by
  simp only [unpackCw, extract_eq_zero_iff]
  constructor
  · intro h
    exact ⟨fun i _ _ => h i (by omega) (by omega), h 47 (by omega) (by omega),
      fun i _ _ => h i (by omega) (by omega), h 44 (by omega) (by omega),
      fun i _ _ => h i (by omega) (by omega)⟩
  · rintro ⟨h1, h2, h3, h4, h5⟩ i hi hi'
    rcases Nat.lt_or_ge i 44 with a | a
    · exact h5 i hi (by omega)
    rcases Nat.eq_or_lt_of_le a with rfl | a
    · exact h4
    rcases Nat.lt_or_ge i 47 with b | b
    · exact h3 i (by omega) (by omega)
    rcases Nat.eq_or_lt_of_le b with rfl | b
    · exact h2
    · exact h1 i (by omega) (by omega)

end Sys2Proof
end

