-- ==== Sys2Proof/Machine/Text.lean ====
section
/-! DEFINITION. The host's text form of a command (spec/30_encoding.md R105), the pseudo-commands it expands
before anything reaches TRB (R106), and the value names of R88. TRB never sees a text: no step uses
this file. -/

namespace Sys2Proof.Machine

/-! Names. -/

/-- The up fields in the order of their ids (R80). -/
def allUpFields : List UpField :=
  [.mute, .smode, .pll, .sdir, .ssl, .inj, .mono, .rmute, .lmute, .port1, .port2, .stby, .band, .clk,
    .softmute, .hcc, .snc, .p1ind, .deemph]

/-- The down fields in the order of their ids (R86). -/
def allDownFields : List DownField := [.ready, .blimit, .spll, .ifc, .rxstereo, .level]

/-- The lower-case name of an up field (R80, R105). -/
def upName : UpField → String
  | .mute => "mute"
  | .smode => "smode"
  | .pll => "pll"
  | .sdir => "sdir"
  | .ssl => "ssl"
  | .inj => "inj"
  | .mono => "mono"
  | .rmute => "rmute"
  | .lmute => "lmute"
  | .port1 => "port1"
  | .port2 => "port2"
  | .stby => "stby"
  | .band => "band"
  | .clk => "clk"
  | .softmute => "softmute"
  | .hcc => "hcc"
  | .snc => "snc"
  | .p1ind => "p1ind"
  | .deemph => "deemph"

/-- The lower-case name of a down field (R86, R105). -/
def downName : DownField → String
  | .ready => "ready"
  | .blimit => "blimit"
  | .spll => "spll"
  | .ifc => "ifc"
  | .rxstereo => "rxstereo"
  | .level => "level"

/-- The names the document gives to field values, all of them (R88). -/
def valueName : UpField → Nat → Option String
  | .smode, 0 => some "normal"
  | .smode, 1 => some "search"
  | .sdir, 0 => some "down"
  | .sdir, 1 => some "up"
  | .ssl, 1 => some "low"
  | .ssl, 2 => some "mid"
  | .ssl, 3 => some "high"
  | .inj, 0 => some "low-side"
  | .inj, 1 => some "high-side"
  | .mono, 0 => some "stereo"
  | .mono, 1 => some "mono"
  | .band, 0 => some "US/Europe"
  | .band, 1 => some "Japan"
  | .clk, 0 => some "13MHz"
  | .clk, 1 => some "32.768kHz"
  | .clk, 2 => some "6.5MHz"
  | .clk, 3 => some "invalid"
  | .deemph, 0 => some "50us"
  | .deemph, 1 => some "75us"
  | .mute, 0 => some "not muted"
  | .mute, 1 => some "mute both channels"
  | _, _ => none

/-! Words and numbers. -/

/-- The words of a text: its pieces between blanks and commas. -/
def splitWords : List Char → List (List Char)
  | [] => [[]]
  | c :: cs =>
    if c = ' ' ∨ c = ',' then [] :: splitWords cs
    else match splitWords cs with
      | w :: ws => (c :: w) :: ws
      | [] => [[c]]

/-- The words of a text, empty pieces left out. -/
def textWords (t : List Char) : List (List Char) := (splitWords t).filter fun w => !w.isEmpty

/-- A digit, in either base. -/
def digit (base : Nat) (c : Char) : Option Nat :=
  let n := c.toNat
  let v :=
    if 48 ≤ n ∧ n ≤ 57 then some (n - 48)
    else if 65 ≤ n ∧ n ≤ 70 then some (n - 55)
    else if 97 ≤ n ∧ n ≤ 102 then some (n - 87)
    else none
  v.filter fun d => d < base

/-- Digits after a value read so far. -/
def readDigits (base acc : Nat) : List Char → Option Nat
  | [] => some acc
  | c :: cs => (digit base c).bind fun d => readDigits base (acc * base + d) cs

/-- An unsigned number, decimal or `0x` hex (R105). -/
def readNat : List Char → Option Nat
  | [] => none
  | '0' :: 'x' :: [] => none
  | '0' :: 'x' :: cs => readDigits 16 0 cs
  | cs => readDigits 10 0 cs

/-- A signed number: a frequency may have a minus sign (log entry 21). -/
def readInt : List Char → Option Int
  | '-' :: cs => (readNat cs).map fun n => -(n : Int)
  | cs => (readNat cs).map fun n => (n : Int)

/-- A side: 0 low, 1 high (R95, R105). -/
def readSide (w : List Char) : Option Bool :=
  match readNat w with
  | some 0 => some false
  | some 1 => some true
  | _ => none

/-- A direction: a number, or `down` or `up` (R105). -/
def readDir (w : List Char) : Option Nat :=
  if w = "down".toList then some 0 else if w = "up".toList then some 1 else readNat w

/-! Commands. -/

/-- The command of a mnemonic with its operand words, given `hv` (R105). -/
def commandOf (hv : Bool) (m : List Char) (ops : List (List Char)) : Option Instr :=
  match ops with
  | [] =>
    if m = "init".toList then some (.init hv)
    else if m = "deinit".toList then some (.deinit hv)
    else if m = "commit".toList then some (.commit hv)
    else if m = "refresh".toList then some (.refresh hv)
    else if m = "info".toList then some (.info hv)
    else if m = "abort".toList then some (.abort hv)
    else match allUpFields.find? fun f => m = ("get." ++ upName f).toList with
      | some f => some (getterOf hv f)
      | none => (allDownFields.find? fun f => m = ("getd." ++ downName f).toList).map (downGetterOf hv)
  | [a] =>
    if m = "f2p".toList then (readInt a).map (.f2p hv)
    else if m = "p2f".toList then (readNat a).map (.p2f hv)
    else if m = "search".toList then (readDir a).map (.search hv)
    else (allUpFields.find? fun f => m = ("set." ++ upName f).toList).bind fun f =>
      (readNat a).map fun v => setterOf hv v f
  | [a, c, d] =>
    (readNat c).bind fun clk => (readSide d).bind fun side =>
      if m = "f2px".toList then (readInt a).map fun f => .f2px hv f clk side
      else if m = "p2fx".toList then (readNat a).map fun p => .p2fx hv p clk side
      else none
  | _ => none

/-- The command a text stands for (R105): `hv` = 1 unless the text ends in the word `@null`. A text whose
operands no word can carry stands for none. -/
def assemble (text : String) : Option Instr :=
  let ws := textWords text.toList
  let hv := ws.getLast? != some "@null".toList
  match (if hv then ws else ws.dropLast) with
  | [] => none
  | m :: ops => (commandOf hv m ops).filter wellFormed

/-! Pseudo-commands (R106). -/

/-- The pseudo-commands. -/
inductive Pseudo where
  | searchUp
  | searchDown
  | setClk13Mhz
  | setClk32k768
  | setClk6m5
  | normal
  | tune (fHz : Int)
deriving DecidableEq, Repr

/-- The pseudo-command a text stands for (R106). -/
def readPseudo (text : String) : Option Pseudo :=
  match textWords text.toList with
  | [m] =>
    if m = "search.up".toList then some .searchUp
    else if m = "search.down".toList then some .searchDown
    else if m = "set.clk.13mhz".toList then some .setClk13Mhz
    else if m = "set.clk.32k768".toList then some .setClk32k768
    else if m = "set.clk.6m5".toList then some .setClk6m5
    else if m = "normal".toList then some .normal
    else none
  | [m, a] => if m = "tune".toList then (readInt a).map .tune else none
  | _ => none

/-- The status and the data of a response (R98). -/
def respStatus (rw : Word) : BitVec 3 := rw.extractLsb' 61 3
def respData (rw : Word) : Nat := (rw.extractLsb' 0 40).toNat

/-- The command the host sends next for a pseudo-command, given the responses it has had so far; none
when the expansion is over (R106). Only `tune` looks at a response: it stops at the first whose status
is not 0. -/
def Pseudo.send : Pseudo → List Word → Option Instr
  | .searchUp, [] => some (.search true 1)
  | .searchDown, [] => some (.search true 0)
  | .setClk13Mhz, [] => some (.setClk true 0)
  | .setClk32k768, [] => some (.setClk true 1)
  | .setClk6m5, [] => some (.setClk true 2)
  | .normal, [] => some (.setSmode true 0)
  | .normal, [_] => some (.commit true)
  | .tune fHz, [] => some (.f2p true fHz)
  | .tune _, [r] => if respStatus r = 0 then some (.setPll true (respData r)) else none
  | .tune _, [_, r] => if respStatus r = 0 then some (.commit true) else none
  | _, _ => none

end Sys2Proof.Machine
end

