-- ==== Sys2Proof/Tests/Slice0.lean ====
section
/-! SUPPORT. Small tests, each of one step or one word, with results taken from the spec's own tables
(95_test_vectors.md, 96_test_vectors_fields.md: V-ENC, V-ILL, V-SET, V-GET, V-GETD, V-LIFE, V-XFER, V-F2P,
V-P2F, V-SRCH, V-ERR), and a witness that meets the hypotheses of each statement that has any. -/

namespace Sys2Proof.Tests

open Sys2Proof.Machine Sys2Proof.Claims

/-! ## Helpers -/

/-- A state with given buffers, flag and answers to come; the rest as at launch. -/
def st (up down : Buffer) (inited : Bool) (env : List Answer) : State :=
  { State.reset with up := up, down := down, inited := inited, env := env }

/-- The response words in a record. -/
def responses : List Event → List Word
  | [] => []
  | .response rw :: es => rw :: responses es
  | .infoResponse rw _ :: es => rw :: responses es
  | .busAcquire _ :: es => responses es
  | .busRelease _ :: es => responses es
  | .memWrite _ _ _ :: es => responses es
  | .memRead _ _ :: es => responses es
  | .sleep _ :: es => responses es
  | .resetInput :: es => responses es

/-- UP and the responses after a step. -/
def upAnd (r : Result) : Option (Buffer × List Word) :=
  match r with
  | .next t => some (t.up, responses t.trace)
  | .fault _ => none
  | .refused _ => none

/-- DOWN, INITED, FSM and the responses after a step. -/
def restAnd (r : Result) : Option (Buffer × Bool × Fsm × List Word) :=
  match r with
  | .next t => some (t.down, t.inited, t.fsm, responses t.trace)
  | .fault _ => none
  | .refused _ => none

/-- One step on a word presented to a state. -/
def run (s : State) (cw : Nat) : Result := step (s.withFetchWord 64 cw)

/-! ## Well-formedness: an ill-formed term for each check -/

theorem test_argFits_refuses : wellFormed (.setPll true (2 ^ 40)) = false := by decide
theorem test_argFits_refuses_search : wellFormed (.search true (2 ^ 40)) = false := by decide
theorem test_argFits_refuses_p2fx : wellFormed (.p2fx true (2 ^ 40) 0 false) = false := by decide
theorem test_hzFits_refuses_high : wellFormed (.f2p true (2 ^ 39)) = false := by decide
theorem test_hzFits_refuses_low : wellFormed (.f2px true (-(2 ^ 39) - 1) 0 false) = false := by decide
theorem test_clkFits_refuses : wellFormed (.f2px true 0 4 false) = false := by decide
theorem test_clkFits_refuses_p2fx : wellFormed (.p2fx true 0 4 false) = false := by decide

/-! ## Words (V-ENC, V-ILL) -/

/-- Bits written out by R95: hv 1, op 0100010, z1 0, src 0, clk 0, side 0, z2 0, arg 0x2A00. -/
theorem test_decode_setPll_bits :
    decode (0b1#1 ++ 0b0100010#7 ++ 0#8 ++ 0b0#1 ++ 0b00#2 ++ 0b0#1 ++ 0#4 ++ 0x2A00#40) = .ok (.setPll true 0x2A00) := by
  decide
/-- hv 1, op 0000101, z1 0, src 1, clk 01, side 1, z2 0, arg 88000000. -/
theorem test_decode_f2px_bits :
    decode (0b1#1 ++ 0b0000101#7 ++ 0#8 ++ 0b1#1 ++ 0b01#2 ++ 0b1#1 ++ 0#4 ++ 88000000#40) =
      .ok (.f2px true 88000000 1 true) := by
  decide
theorem test_decode_lifecycle :
    decode 0x8000000000000000 = .ok (.init true) ∧ decode 0x8100000000000000 = .ok (.deinit true) ∧
      decode 0x8400000000000000 = .ok (.info true) ∧ decode 0x0400000000000000 = .ok (.info false) := by decide
theorem test_decode_transfer :
    decode 0x8200000000000000 = .ok (.commit true) ∧ decode 0x8300000000000000 = .ok (.refresh true) := by decide
theorem test_decode_conversions :
    decode 0x85000000053EC600 = .ok (.f2p true 88000000) ∧ decode 0x850000FFFFFC7119 = .ok (.f2p true (-233191)) ∧
      decode 0x8500C000053EC600 = .ok (.f2px true 88000000 2 false) ∧ decode 0x8600000000002A11 = .ok (.p2f true 0x2A11) ∧
      decode 0x8600800000003FFF = .ok (.p2fx true 0x3FFF 0 false) := by decide
theorem test_decode_search :
    decode 0x8700000000000000 = .ok (.search true 0) ∧ decode 0x8700000000000001 = .ok (.search true 1) ∧
      decode 0x8800000000000000 = .ok (.abort true) := by decide
theorem test_encode_words :
    encode (.setMute true 1) = 0xA000000000000001 ∧ encode (.setDeemph true 1) = 0xB200000000000001 ∧
      encode (.getMute true) = 0xC000000000000000 ∧ encode (.getDeemph true) = 0xD200000000000000 ∧
      encode (.getdReady true) = 0xE000000000000000 ∧ encode (.getdLevel true) = 0xE500000000000000 ∧
      encode (.getPll false) = 0x4200000000000000 ∧ encode (.f2p true (-233191)) = 0x850000FFFFFC7119 := by decide
theorem test_illegal_op :
    decode 0x8900000000000000 = .error .unassignedOp ∧ decode 0x9F00000000000000 = .error .unassignedOp ∧
      decode 0xB300000000000001 = .error .unassignedOp ∧ decode 0xD300000000000000 = .error .unassignedOp ∧
      decode 0xE600000000000000 = .error .unassignedOp ∧ decode 0x7F00000000000000 = .error .unassignedOp := by decide
theorem test_illegal_fields :
    decode 0x8201000000000000 = .error .z1NotZero ∧ decode 0xA200010000002A00 = .error .z2NotZero ∧
      decode 0xA200800000002A00 = .error .srcNotZero ∧ decode 0x85002000053EC600 = .error .clkNotZero ∧
      decode 0x8600100000002A11 = .error .sideNotZero := by decide
theorem test_illegal_arg :
    decode 0x8000000000000001 = .error .argNotZero ∧ decode 0xE000000000000001 = .error .argNotZero ∧
      decode 0x8400000000000005 = .error .argNotZero ∧ decode 0x8800000000000001 = .error .argNotZero := by decide

/-! ## Setters (V-SET-1, V-SET-2; V-SET-3 for SSL) -/

/-- The all-zero buffer and the all-ones reachable buffer of V-SET, initialized. -/
def zeros : State := st Buffer.zero Buffer.zero true []
def ones : State := st ⟨0xFF, 0xFF, 0xFF, 0xFF, 0xC0⟩ Buffer.zero true []

theorem test_setMute_max : upAnd (run zeros 0xA000000000000001) = some (⟨0x80, 0x00, 0x00, 0x00, 0x00⟩, [0]) := by decide
theorem test_setMute_clear : upAnd (run ones 0xA000000000000000) = some (⟨0x7F, 0xFF, 0xFF, 0xFF, 0xC0⟩, [0]) := by decide
theorem test_setSmode_max : upAnd (run zeros 0xA100000000000001) = some (⟨0x40, 0x00, 0x00, 0x00, 0x00⟩, [0]) := by decide
theorem test_setSmode_clear : upAnd (run ones 0xA100000000000000) = some (⟨0xBF, 0xFF, 0xFF, 0xFF, 0xC0⟩, [0]) := by decide
theorem test_setPll_max : upAnd (run zeros 0xA200000000003FFF) = some (⟨0x3F, 0xFF, 0x00, 0x00, 0x00⟩, [0]) := by decide
theorem test_setPll_clear : upAnd (run ones 0xA200000000000000) = some (⟨0xC0, 0x00, 0xFF, 0xFF, 0xC0⟩, [0]) := by decide
theorem test_setSdir_max : upAnd (run zeros 0xA300000000000001) = some (⟨0x00, 0x00, 0x80, 0x00, 0x00⟩, [0]) := by decide
theorem test_setSdir_clear : upAnd (run ones 0xA300000000000000) = some (⟨0xFF, 0xFF, 0x7F, 0xFF, 0xC0⟩, [0]) := by decide
theorem test_setSsl_max : upAnd (run zeros 0xA400000000000003) = some (⟨0x00, 0x00, 0x60, 0x00, 0x00⟩, [0]) := by decide
theorem test_setSsl_clear : upAnd (run ones 0xA400000000000001) = some (⟨0xFF, 0xFF, 0xBF, 0xFF, 0xC0⟩, [0]) := by decide
theorem test_setInj_max : upAnd (run zeros 0xA500000000000001) = some (⟨0x00, 0x00, 0x10, 0x00, 0x00⟩, [0]) := by decide
theorem test_setInj_clear : upAnd (run ones 0xA500000000000000) = some (⟨0xFF, 0xFF, 0xEF, 0xFF, 0xC0⟩, [0]) := by decide
theorem test_setMono_max : upAnd (run zeros 0xA600000000000001) = some (⟨0x00, 0x00, 0x08, 0x00, 0x00⟩, [0]) := by decide
theorem test_setMono_clear : upAnd (run ones 0xA600000000000000) = some (⟨0xFF, 0xFF, 0xF7, 0xFF, 0xC0⟩, [0]) := by decide
theorem test_setRmute_max : upAnd (run zeros 0xA700000000000001) = some (⟨0x00, 0x00, 0x04, 0x00, 0x00⟩, [0]) := by decide
theorem test_setRmute_clear : upAnd (run ones 0xA700000000000000) = some (⟨0xFF, 0xFF, 0xFB, 0xFF, 0xC0⟩, [0]) := by decide
theorem test_setLmute_max : upAnd (run zeros 0xA800000000000001) = some (⟨0x00, 0x00, 0x02, 0x00, 0x00⟩, [0]) := by decide
theorem test_setLmute_clear : upAnd (run ones 0xA800000000000000) = some (⟨0xFF, 0xFF, 0xFD, 0xFF, 0xC0⟩, [0]) := by decide
theorem test_setPort1_max : upAnd (run zeros 0xA900000000000001) = some (⟨0x00, 0x00, 0x01, 0x00, 0x00⟩, [0]) := by decide
theorem test_setPort1_clear : upAnd (run ones 0xA900000000000000) = some (⟨0xFF, 0xFF, 0xFE, 0xFF, 0xC0⟩, [0]) := by decide
theorem test_setPort2_max : upAnd (run zeros 0xAA00000000000001) = some (⟨0x00, 0x00, 0x00, 0x80, 0x00⟩, [0]) := by decide
theorem test_setPort2_clear : upAnd (run ones 0xAA00000000000000) = some (⟨0xFF, 0xFF, 0xFF, 0x7F, 0xC0⟩, [0]) := by decide
theorem test_setStby_max : upAnd (run zeros 0xAB00000000000001) = some (⟨0x00, 0x00, 0x00, 0x40, 0x00⟩, [0]) := by decide
theorem test_setStby_clear : upAnd (run ones 0xAB00000000000000) = some (⟨0xFF, 0xFF, 0xFF, 0xBF, 0xC0⟩, [0]) := by decide
theorem test_setBand_max : upAnd (run zeros 0xAC00000000000001) = some (⟨0x00, 0x00, 0x00, 0x20, 0x00⟩, [0]) := by decide
theorem test_setBand_clear : upAnd (run ones 0xAC00000000000000) = some (⟨0xFF, 0xFF, 0xFF, 0xDF, 0xC0⟩, [0]) := by decide
theorem test_setClk_max : upAnd (run zeros 0xAD00000000000003) = some (⟨0x00, 0x00, 0x00, 0x10, 0x80⟩, [0]) := by decide
theorem test_setClk_clear : upAnd (run ones 0xAD00000000000000) = some (⟨0xFF, 0xFF, 0xFF, 0xEF, 0x40⟩, [0]) := by decide
theorem test_setSoftmute_max : upAnd (run zeros 0xAE00000000000001) = some (⟨0x00, 0x00, 0x00, 0x08, 0x00⟩, [0]) := by decide
theorem test_setSoftmute_clear : upAnd (run ones 0xAE00000000000000) = some (⟨0xFF, 0xFF, 0xFF, 0xF7, 0xC0⟩, [0]) := by decide
theorem test_setHcc_max : upAnd (run zeros 0xAF00000000000001) = some (⟨0x00, 0x00, 0x00, 0x04, 0x00⟩, [0]) := by decide
theorem test_setHcc_clear : upAnd (run ones 0xAF00000000000000) = some (⟨0xFF, 0xFF, 0xFF, 0xFB, 0xC0⟩, [0]) := by decide
theorem test_setSnc_max : upAnd (run zeros 0xB000000000000001) = some (⟨0x00, 0x00, 0x00, 0x02, 0x00⟩, [0]) := by decide
theorem test_setSnc_clear : upAnd (run ones 0xB000000000000000) = some (⟨0xFF, 0xFF, 0xFF, 0xFD, 0xC0⟩, [0]) := by decide
theorem test_setP1ind_max : upAnd (run zeros 0xB100000000000001) = some (⟨0x00, 0x00, 0x00, 0x01, 0x00⟩, [0]) := by decide
theorem test_setP1ind_clear : upAnd (run ones 0xB100000000000000) = some (⟨0xFF, 0xFF, 0xFF, 0xFE, 0xC0⟩, [0]) := by decide
theorem test_setDeemph_max : upAnd (run zeros 0xB200000000000001) = some (⟨0x00, 0x00, 0x00, 0x00, 0x40⟩, [0]) := by decide
theorem test_setDeemph_clear : upAnd (run ones 0xB200000000000000) = some (⟨0xFF, 0xFF, 0xFF, 0xFF, 0x80⟩, [0]) := by decide

theorem test_range_and_gate_errors :
    upAnd (run zeros 0xA000000000000002) = some (⟨0, 0, 0, 0, 0⟩, [0x8000000000000000]) ∧
      upAnd (run ones 0xA00000FFFFFFFFFF) = some (⟨0xFF, 0xFF, 0xFF, 0xFF, 0xC0⟩, [0x8000000000000000]) ∧
      upAnd (run zeros 0xA400000000000000) = some (⟨0, 0, 0, 0, 0⟩, [0x8000000000000000]) ∧
      upAnd (run zeros 0xAD00000000000004) = some (⟨0, 0, 0, 0, 0⟩, [0x8000000000000000]) ∧
      upAnd (run zeros 0x2200000000000005) = some (⟨0, 0, 0, 0, 0⟩, [0x2000000000000000]) ∧
      upAnd (run State.reset 0xA200000000004000) = some (⟨0, 0, 0, 0, 0⟩, [0x4000000000000000]) ∧
      upAnd (run State.reset 0x1000000000000000) = some (⟨0, 0, 0, 0, 0⟩, [0xE000000000000000]) := by decide

/-! ## Getters (V-GET, V-GETD) -/

/-- The two up buffers of V-GET and the three down buffers of V-GETD. -/
def getA : State := st ⟨0xA5, 0x5A, 0x96, 0x69, 0x80⟩ Buffer.zero true []
def getB : State := st ⟨0x5A, 0xA5, 0x69, 0x96, 0x40⟩ Buffer.zero true []
def downA : State := st Buffer.zero ⟨0x7F, 0xFE, 0x80, 0x0F, 0xFF⟩ true []
def downB : State := st Buffer.zero ⟨0xAB, 0x10, 0xB7, 0xA5, 0x5A⟩ true []
def downC : State := st Buffer.zero ⟨0xC0, 0x00, 0x7F, 0xF0, 0x00⟩ true []

/-- Only the responses. -/
def answersOf (r : Result) : Option (List Word) := (upAnd r).map Prod.snd

theorem test_getMute : answersOf (run getA 0xC000000000000000) = some [0x1] ∧
    answersOf (run getB 0xC000000000000000) = some [0x0] := by decide
theorem test_getSmode : answersOf (run getA 0xC100000000000000) = some [0x0] ∧
    answersOf (run getB 0xC100000000000000) = some [0x1] := by decide
theorem test_getPll : answersOf (run getA 0xC200000000000000) = some [0x255A] ∧
    answersOf (run getB 0xC200000000000000) = some [0x1AA5] := by decide
theorem test_getSdir : answersOf (run getA 0xC300000000000000) = some [0x1] ∧
    answersOf (run getB 0xC300000000000000) = some [0x0] := by decide
theorem test_getSsl : answersOf (run getA 0xC400000000000000) = some [0x0] ∧
    answersOf (run getB 0xC400000000000000) = some [0x3] := by decide
theorem test_getInj : answersOf (run getA 0xC500000000000000) = some [0x1] ∧
    answersOf (run getB 0xC500000000000000) = some [0x0] := by decide
theorem test_getMono : answersOf (run getA 0xC600000000000000) = some [0x0] ∧
    answersOf (run getB 0xC600000000000000) = some [0x1] := by decide
theorem test_getRmute : answersOf (run getA 0xC700000000000000) = some [0x1] ∧
    answersOf (run getB 0xC700000000000000) = some [0x0] := by decide
theorem test_getLmute : answersOf (run getA 0xC800000000000000) = some [0x1] ∧
    answersOf (run getB 0xC800000000000000) = some [0x0] := by decide
theorem test_getPort1 : answersOf (run getA 0xC900000000000000) = some [0x0] ∧
    answersOf (run getB 0xC900000000000000) = some [0x1] := by decide
theorem test_getPort2 : answersOf (run getA 0xCA00000000000000) = some [0x0] ∧
    answersOf (run getB 0xCA00000000000000) = some [0x1] := by decide
theorem test_getStby : answersOf (run getA 0xCB00000000000000) = some [0x1] ∧
    answersOf (run getB 0xCB00000000000000) = some [0x0] := by decide
theorem test_getBand : answersOf (run getA 0xCC00000000000000) = some [0x1] ∧
    answersOf (run getB 0xCC00000000000000) = some [0x0] := by decide
theorem test_getClk : answersOf (run getA 0xCD00000000000000) = some [0x2] ∧
    answersOf (run getB 0xCD00000000000000) = some [0x1] := by decide
theorem test_getSoftmute : answersOf (run getA 0xCE00000000000000) = some [0x1] ∧
    answersOf (run getB 0xCE00000000000000) = some [0x0] := by decide
theorem test_getHcc : answersOf (run getA 0xCF00000000000000) = some [0x0] ∧
    answersOf (run getB 0xCF00000000000000) = some [0x1] := by decide
theorem test_getSnc : answersOf (run getA 0xD000000000000000) = some [0x0] ∧
    answersOf (run getB 0xD000000000000000) = some [0x1] := by decide
theorem test_getP1ind : answersOf (run getA 0xD100000000000000) = some [0x1] ∧
    answersOf (run getB 0xD100000000000000) = some [0x0] := by decide
theorem test_getDeemph : answersOf (run getA 0xD200000000000000) = some [0x0] ∧
    answersOf (run getB 0xD200000000000000) = some [0x1] := by decide
theorem test_getdReady : answersOf (run downA 0xE000000000000000) = some [0x0] ∧
    answersOf (run downB 0xE000000000000000) = some [0x1] ∧ answersOf (run downC 0xE000000000000000) = some [0x1] := by decide
theorem test_getdBlimit : answersOf (run downA 0xE100000000000000) = some [0x1] ∧
    answersOf (run downB 0xE100000000000000) = some [0x0] ∧ answersOf (run downC 0xE100000000000000) = some [0x1] := by decide
theorem test_getdSpll : answersOf (run downA 0xE200000000000000) = some [0x3FFE] ∧
    answersOf (run downB 0xE200000000000000) = some [0x2B10] ∧ answersOf (run downC 0xE200000000000000) = some [0x0] := by decide
theorem test_getdIfc : answersOf (run downA 0xE300000000000000) = some [0x0] ∧
    answersOf (run downB 0xE300000000000000) = some [0x37] ∧ answersOf (run downC 0xE300000000000000) = some [0x7F] := by decide
theorem test_getdRxstereo : answersOf (run downA 0xE400000000000000) = some [0x1] ∧
    answersOf (run downB 0xE400000000000000) = some [0x1] ∧ answersOf (run downC 0xE400000000000000) = some [0x0] := by decide
theorem test_getdLevel : answersOf (run downA 0xE500000000000000) = some [0x0] ∧
    answersOf (run downB 0xE500000000000000) = some [0xA] ∧ answersOf (run downC 0xE500000000000000) = some [0xF] := by decide

/-! ## Lifecycle (V-LIFE) -/

def anyOk : Answer := .ok Buffer.zero
def lifeState (env : List Answer) : State := st ⟨0x2A, 0, 0x40, 0x10, 0⟩ ⟨0xAB, 0x10, 0xB7, 0xA5, 0x5A⟩ true env

theorem test_init_ok : upAnd (run (lifeState [anyOk]) 0x8000000000000000) = some (⟨0, 0, 0, 0, 0⟩, [0]) ∧
    restAnd (run (lifeState [anyOk]) 0x8000000000000000) = some (⟨0, 0, 0, 0, 0⟩, true, .idle, [0]) := by decide
theorem test_init_fail : restAnd (run (st Buffer.zero Buffer.zero false [.fail 0x07]) 0x8000000000000000) =
    some (⟨0, 0, 0, 0, 0⟩, false, .idle, [0x6007000000000000]) := by decide
theorem test_deinit_ok : (restAnd (run (lifeState [anyOk, anyOk]) 0x8100000000000000)).map Prod.snd =
    some (false, .idle, [0]) := by decide
theorem test_deinit_both_fail : upAnd (run (lifeState [.fail 0x11, .fail 0x22]) 0x8100000000000000) =
    some (⟨0x2A, 0, 0x40, 0x50, 0⟩, [0x6011000000000000]) := by decide
theorem test_info : restAnd (run State.reset 0x0400000000000000) = some (⟨0, 0, 0, 0, 0⟩, false, .idle, [0]) := by decide

/-! ## Transfers (V-XFER) -/

def xferState (env : List Answer) : State := st ⟨0x2A, 0x11, 0x10, 0x10, 0⟩ ⟨0x11, 0x22, 0x33, 0x44, 0x55⟩ true env

theorem test_commit_ok : exec (.commit true) (xferState [anyOk]) = .next { xferState [] with
    trace := [.memWrite Config.devAddr ⟨0x2A, 0x11, 0x10, 0x10, 0⟩ .ok, .response 0] } := rfl
theorem test_commit_fail : upAnd (run (xferState [.fail 0x05]) 0x8200000000000000) =
    some (⟨0x2A, 0x11, 0x10, 0x10, 0⟩, [0x6005000000000000]) := by decide
theorem test_refresh_ok : restAnd (run (xferState [.ok ⟨0xAB, 0x10, 0xB7, 0xA5, 0x5A⟩]) 0x8300000000000000) =
    some (⟨0xAB, 0x10, 0xB7, 0xA5, 0x5A⟩, true, .idle, [0]) := by decide
theorem test_refresh_fail_zero : restAnd (run (xferState [.fail 0x00]) 0x8300000000000000) =
    some (⟨0x11, 0x22, 0x33, 0x44, 0x55⟩, true, .idle, [0x6000000000000000]) := by decide

/-! ## Conversions (V-F2P, V-P2F, coupled rows, V-ERR) -/

def upOnly (up : Buffer) : State := st up Buffer.zero true []

theorem test_f2p : answersOf (run (upOnly ⟨0, 0, 0x10, 0x10, 0⟩) 0x85000000053EC600) = some [0x2A11] ∧
    answersOf (run (upOnly ⟨0, 0, 0, 0x10, 0⟩) 0x85000000053EC600) = some [0x29DA] ∧
    answersOf (run (upOnly ⟨0, 0, 0x10, 0, 0x80⟩) 0x85000000053EC600) = some [0x36] := by decide
theorem test_f2p_errors : answersOf (run (upOnly ⟨0, 0, 0x10, 0x10, 0x80⟩) 0x850000000BEBC200) = some [0xA000000000000000] ∧
    answersOf (run (upOnly ⟨0, 0, 0, 0x10, 0⟩) 0x850000000BEBC200) = some [0x8000000000000000] := by decide
theorem test_f2px_truncates : answersOf (run State.reset 0x8500B0FFFFFC7119) = some [0] ∧
    answersOf (run State.reset 0x8500B0FFFFFC7118) = some [0x8000000000000000] ∧
    answersOf (run State.reset 0x8500A00000000000) = some [0x8000000000000000] := by decide
theorem test_f2px_largest : answersOf (run State.reset 0x8500B00007FC9117) = some [0x3FFF] ∧
    answersOf (run State.reset 0x8500B00007FC9118) = some [0x8000000000000000] ∧
    answersOf (run State.reset 0x8500E0FFFFFFFFFF) = some [0xA000000000000000] := by decide
theorem test_p2f : answersOf (run (upOnly ⟨0, 0, 0x10, 0x10, 0⟩) 0x8600000000002A11) = some [0x53EB118] ∧
    answersOf (run (upOnly ⟨0, 0, 0, 0, 0⟩) 0x860000000000001B) = some [0x53E6458] := by decide
theorem test_p2f_operand_first : answersOf (run (upOnly ⟨0, 0, 0x10, 0x10, 0x80⟩) 0x8600000000004000) =
    some [0x8000000000000000] := by decide
theorem test_p2fx : answersOf (run State.reset 0x8600B00000000000) = some [0xFFFFFC9118] ∧
    answersOf (run State.reset 0x8600800000003FFF) = some [0xC65A5D798] := by decide
theorem test_p2fx_errors : answersOf (run State.reset 0x8600F00000004000) = some [0x8000000000000000] ∧
    answersOf (run State.reset 0x8600E00000002A11) = some [0xA000000000000000] := by decide

/-! ## The search (V-SRCH) -/

def srchState (fsm : Fsm) (down : Buffer) (env : List Answer) : State :=
  { st ⟨0x6A, 0, 0xC0, 0, 0⟩ down true env with fsm := fsm, sched := [.controller] }

theorem test_search_commits : upAnd (run (upOnly ⟨0x2A, 0, 0x40, 0, 0⟩) 0x8700000000000002) =
      some (⟨0x2A, 0, 0x40, 0, 0⟩, [0x8000000000000000]) ∧
    upAnd (run (st ⟨0x2A, 0, 0x40, 0, 0⟩ Buffer.zero true [anyOk]) 0x8700000000000001) =
      some (⟨0x6A, 0, 0xC0, 0, 0⟩, []) := by decide
theorem test_search_commit_fails :
    upAnd (run (st ⟨0x2A, 0, 0x40, 0, 0⟩ Buffer.zero true [.fail 0x02]) 0x8700000000000001) =
      some (⟨0x6A, 0, 0xC0, 0, 0⟩, [0x6002000000000000]) := by decide
theorem test_poll_not_ready : restAnd (step (srchState .polling Buffer.zero [.ok ⟨0x6A, 0, 0, 0, 0⟩])) =
    some (⟨0x6A, 0, 0, 0, 0⟩, true, .polling, []) := by decide
theorem test_poll_ready : restAnd (step (srchState .polling Buffer.zero [.ok ⟨0xAB, 0x10, 0, 0, 0⟩])) =
      some (⟨0xAB, 0x10, 0, 0, 0⟩, true, .found, []) ∧
    restAnd (step (srchState .polling Buffer.zero [.ok ⟨0xEB, 0x10, 0, 0, 0⟩])) =
      some (⟨0xEB, 0x10, 0, 0, 0⟩, true, .bandLimit, []) := by decide
theorem test_poll_fails : restAnd (step (srchState .polling ⟨0x2A, 0x40, 0, 0, 0⟩ [.fail 0x09])) =
    some (⟨0x2A, 0x40, 0, 0, 0⟩, true, .idle, [0x6009000000000000]) := by decide
theorem test_found : upAnd (step (srchState .found ⟨0xAB, 0x10, 0, 0, 0⟩ [])) =
    some (⟨0x6B, 0x10, 0xC0, 0, 0⟩, [0x0800000000002B10]) := by decide
theorem test_bandLimit : upAnd (step (srchState .bandLimit ⟨0xEB, 0x10, 0, 0, 0⟩ [])) =
    some (⟨0x6A, 0, 0xC0, 0, 0⟩, [0x1000000000000000]) := by decide
theorem test_abort_cancels : restAnd (run (srchState .polling ⟨0x2A, 0x80, 0, 0, 0⟩ []) 0x8800000000000000) =
    some (⟨0x2A, 0x80, 0, 0, 0⟩, true, .idle, [0x1800000000000000, 0]) := by decide
theorem test_abort_idle : upAnd (run (upOnly ⟨0x2A, 0, 0x40, 0, 0⟩) 0x8800000000000000) =
    some (⟨0x2A, 0, 0x40, 0, 0⟩, [0]) := by decide
theorem test_reset_input : (restAnd (step { lifeState [] with sched := [.reset], fsm := .polling })).map Prod.snd =
    some (false, .idle, []) := by decide

/-- A state about to run a word inside which the reset input is asserted (R290), and the ports after such a step. -/
def insideReset (done : Nat) (env : List Answer) (cw : Word) : State :=
  { lifeState env with sched := [.resetDuring done], cmds := [cw] }
def portsAnd (r : Result) : Option (Bool × List Answer × List Event) :=
  match r with
  | .next t => some (t.inited, t.env, t.trace)
  | .fault _ => none
  | .refused _ => none

theorem test_reset_inside_deinit : portsAnd (step (insideReset 1 [anyOk, .fail 3] 0x8100000000000000)) =
      some (false, [.fail 3], [.memWrite Config.devAddr ⟨0x2A, 0, 0x40, 0x50, 0⟩ .ok, .resetInput]) ∧
    portsAnd (step (insideReset 9 [anyOk, .fail 3] 0x8100000000000000)) =
      some (false, [], [.memWrite Config.devAddr ⟨0x2A, 0, 0x40, 0x50, 0⟩ .ok, .busRelease (.fail 3), .resetInput]) :=
  ⟨rfl, rfl⟩
theorem test_reset_inside_refresh : portsAnd (step (insideReset 0 [anyOk] 0x8300000000000000)) =
      some (false, [anyOk], [.resetInput]) ∧
    portsAnd (step (insideReset 1 [anyOk] 0x8300000000000000)) =
      some (false, [], [.memRead Config.devAddr anyOk, .resetInput]) :=
  ⟨rfl, rfl⟩

/-! ## Text (R105, R106) -/

theorem test_text_forms : assemble "f2px 88000000, 2, 0" = some (.f2px true 88000000 2 false) ∧
    assemble "set.pll 0x2A00" = some (.setPll true 0x2A00) ∧ assemble "get.pll @null" = some (.getPll false) ∧
    assemble "f2p -233191" = some (.f2p true (-233191)) ∧ assemble "search up" = some (.search true 1) := by decide
theorem test_text_tune : readPseudo "tune 88000000" = some (.tune 88000000) ∧
    Pseudo.send (.tune 88000000) [0x2A11] = some (.setPll true 0x2A11) ∧
    Pseudo.send (.tune 88000000) [0xA000000000000000] = none ∧
    Pseudo.send (.tune 88000000) [0x2A11, 0] = some (.commit true) := by decide

/-! ## Witnesses: for each statement with hypotheses, concrete values that meet them -/

theorem witness_DecodeEncodeRoundTrip : wellFormed (.f2px true (-(2 ^ 39)) 3 true) = true ∧
    wellFormed (.f2p false (2 ^ 39 - 1)) = true ∧ wellFormed (.setPll true (2 ^ 40 - 1)) = true := by decide

theorem witness_EncodeDecodeRoundTrip : decode 0x8500B000053EC600 = .ok (.f2px true 88000000 1 true) := by decide

/-- Each condition of R102, at its boundary values. -/
theorem witness_DecoderRefusesExactlyMalformedWords :
    (∀ cw ∈ ([0x0900000000000000, 0x1F00000000000000, 0x3300000000000000, 0x3F00000000000000, 0x5300000000000000,
        0x5F00000000000000, 0x6600000000000000, 0x7F00000000000000, 0x0001000000000000, 0x0000010000000000,
        0x2000800000000000, 0x2000200000000000, 0x2000100000000000, 0x0500200000000000, 0x0600100000000000,
        0x0400000000000001, 0x0800000000000001, 0x4000000000000001] : List Word), R102Malformed cw) ∧
      ¬ R102Malformed 0x8500F00000000001 := by
  refine ⟨fun cw h => ?_, by simp only [R102Malformed]; decide⟩
  fin_cases h <;> (simp only [R102Malformed]; decide)

/-- A launch state with one word on the port. -/
def onPort (q : List Turn) (f : Fsm) (cw : Word) : State := { State.reset with cmds := [cw], sched := q, fsm := f }

theorem witness_MalformedWordAnswersIllegalCommand :
    (turn (onPort [.host] .idle 0x8900000000000000)).1 = .host ∧ (turn (onPort [] .idle 0x8900000000000000)).1 = .host ∧
      readyFor .idle 0x8900000000000000 ∧ R102Malformed 0x8900000000000000 ∧
      (turn (onPort [.host] .committed 0x8800000000000001)).1 = .host ∧ readyFor .committed 0x8800000000000001 ∧
      (turn (onPort [.host] .polling 0x8800000000000001)).1 = .host ∧ readyFor .polling 0x8800000000000001 ∧
      R102Malformed 0x8800000000000001 := by
  simp only [R102Malformed, readyFor]; decide

theorem witness_StepRunsDecodedCommand :
    (turn (onPort [.host] .idle 0x8000000000000000)).1 = .host ∧ readyFor .idle 0x8000000000000000 ∧
      (onPort [] .idle 0x8000000000000000).sched = [] ∧ (onPort [] .idle 0x8000000000000000).fsm = .idle ∧
      decode 0x8000000000000000 = .ok (.init true) ∧
      (turn (onPort [.host] .polling 0x8800000000000000)).1 = .host ∧ readyFor .polling 0x8800000000000000 ∧
      decode 0x8800000000000000 = .ok (.abort true) := by
  simp only [readyFor]; decide

theorem witness_FetchWordRunsNext : decodeTableWord 64 0x8000000000000000 = some (.init true) ∧
    State.reset.fsm = .idle := by decide

/-- For every opcode of a setter, of SEARCH, a getter or another command without operand, a word with zeros in bits 55
to 40, one with zeros in all of bits 55 to 0, and one with a bit set there. -/
theorem witness_words_of_every_op : ∀ op : BitVec 7,
    opOf (0b1#1 ++ op ++ 0x0000000000FFFF#56) = op ∧ midOf (0b1#1 ++ op ++ 0x0000000000FFFF#56) = 0 ∧
    opOf (0b1#1 ++ op ++ 0#56) = op ∧ midOf (0b1#1 ++ op ++ 0#56) = 0 ∧ argOf (0b1#1 ++ op ++ 0#56) = 0 ∧
    opOf (0b1#1 ++ op ++ 0x00010000000000#56) = op ∧ midOf (0b1#1 ++ op ++ 0x00010000000000#56) ≠ 0 := by decide

/-- The explicit, the coupled and a malformed word of each conversion. -/
theorem witness_words_of_conversions : ∀ op ∈ ([0x05, 0x06] : List (BitVec 7)),
    (let w : Word := 0b1#1 ++ op ++ 0x00F00000000001#56;
      opOf w = op ∧ w.extractLsb' 48 8 = 0 ∧ w.extractLsb' 40 4 = 0 ∧ w.getLsbD 47 = true) ∧
    (let w : Word := 0b1#1 ++ op ++ 0x0000FFFFFFFFFF#56;
      opOf w = op ∧ midOf w = 0) ∧
    (let w : Word := 0b1#1 ++ op ++ 0x00100000000000#56;
      opOf w = op ∧ w.getLsbD 47 = false ∧ midOf w ≠ 0) := by decide

/-- The checks of a setter or a getter: each of the three ways out, and a legal and an illegal value. -/
theorem witness_checks : zeros.inited = true ∧ State.reset.inited = false ∧ isBit 1 = true ∧ isBit 2 = false := by decide

theorem witness_SetThenGetIsolatesFields : zeros.inited = true ∧ legalSet .ssl 1 = true ∧ legalSet .ssl 3 = true ∧
    legalSet .clk 3 = true ∧ legalSet .pll 0x3FFF = true ∧
    exec (getterOf true .clk) zeros = .next (answered 0 zeros) ∧
    exec (getterOf true .pll) ones = .next (answered 0x3FFF ones) :=
  ⟨rfl, rfl, rfl, rfl, rfl, rfl, rfl⟩

theorem witness_DeinitPowersDownAndReleases : State.reset.inited = false ∧ (lifeState [anyOk, anyOk]).inited = true ∧
    (drawAnswer (lifeState [anyOk, anyOk])).1 = .ok Buffer.zero ∧
    (drawAnswer (drawAnswer (lifeState [anyOk, anyOk])).2).1 = .ok Buffer.zero := by decide

theorem witness_DeinitFailureKeepsHandle : (lifeState [.fail 0x11]).inited = true ∧
    (drawAnswer (lifeState [.fail 0x11])).1 = .fail 0x11 ∧
    (drawAnswer (lifeState [anyOk, .fail 0x22])).1 = .ok Buffer.zero ∧
    (drawAnswer (drawAnswer (lifeState [anyOk, .fail 0x22])).2).1 = .fail 0x22 := by decide

theorem witness_LifecycleMovesOnlyByInitDeinitReset :
    (∃ s t, step s = .next t ∧ s.inited = false ∧ t.inited = true) ∧
    (∃ s t, step s = .next t ∧ s.inited = true ∧ t.inited = false ∧ s.sched = [.host]) ∧
    (∃ s t, step s = .next t ∧ s.inited = true ∧ t.inited = false ∧ s.sched = [.reset]) ∧
    (∃ s t, step s = .next t ∧ s.inited = true ∧ t.inited = false ∧
      t.trace = [.memWrite Config.devAddr s.up .ok, .resetInput]) ∧
    (∃ s t, step s = .next t ∧ s.inited = true ∧ t.inited = false ∧
      t.trace = [.response 0x1800000000000000, .resetInput]) :=
  ⟨⟨(st Buffer.zero Buffer.zero false [anyOk]).withFetchWord 64 0x8000000000000000, _, rfl, rfl, rfl⟩,
    ⟨(lifeState [anyOk, anyOk]).withFetchWord 64 0x8100000000000000, _, rfl, rfl, rfl, rfl⟩,
    ⟨{ lifeState [] with sched := [.reset] }, _, rfl, rfl, rfl, rfl⟩,
    ⟨{ lifeState [anyOk] with sched := [.resetDuring 1], cmds := [0x8200000000000000] }, _, rfl, rfl, rfl, rfl⟩,
    ⟨{ lifeState [] with sched := [.resetDuring 1], cmds := [0x8800000000000000], fsm := .polling }, _, rfl, rfl, rfl, rfl⟩⟩

theorem witness_P2fIsExactAndFits : (0 : Nat) ≤ 0x3FFF ∧ (0x3FFF : Nat) ≤ 0x3FFF ∧ kOf 0 = some 3250000 ∧
    kOf 1 = some 8192 ∧ kOf 2 = some 1625000 := by decide

theorem witness_ClockThreeIsRefusedByConversions : (0x3FFF : Nat) ≤ 0x3FFF ∧
    (upOnly ⟨0, 0, 0x10, 0x10, 0x80⟩).inited = true ∧ (upOnly ⟨0, 0, 0x10, 0x10, 0x80⟩).up.b3.getLsbD 4 = true ∧
    (upOnly ⟨0, 0, 0x10, 0x10, 0x80⟩).up.b4.getLsbD 7 = true := by decide

theorem witness_PllRoundTrip : (0 : Nat) ≤ 0x3FFF ∧ (0x3FFF : Nat) ≤ 0x3FFF ∧ (0 : Nat) ≤ 2 ∧ (2 : Nat) ≤ 2 := by decide

/-- From V-F2P: an inexact quotient, and one truncated up to zero. -/
theorem witness_FrequencyRoundTripWithinOneUnit : kOf 1 = some 8192 ∧ f2pFn 88000000 1 true = some 10769 ∧
    (0 : Int) ≤ 10769 ∧ f2pFn (-233191) 1 true = some 0 ∧ (0 : Int) ≤ 0 := by decide

theorem witness_ConversionsArePure : ∀ i ∈ [Instr.f2p true 88000000, .f2px true 0 3 false, .p2f true 0x4000, .p2fx true 1 2 true],
    converts i = true ∧ (downA).up = zeros.up ∧ downA.inited = zeros.inited ∧ downA ≠ zeros ∧
      (i = .f2px true 0 3 false ∨ i = .p2fx true 1 2 true → explicitForm i = true) ∧
      ones.up ≠ State.reset.up ∧ ones.inited ≠ State.reset.inited := by decide

theorem witness_CommittedEntersPolling : (turn (srchState .committed Buffer.zero [])).1 = .controller ∧
    (turn { srchState .committed Buffer.zero [] with sched := [] }).1 = .controller ∧
    (srchState .committed Buffer.zero []).fsm = .committed := by decide

theorem witness_FailedPollEndsSearch : 
    ∀ q ∈ [[], [Turn.controller]], let s : State := { srchState .polling Buffer.zero [.fail 9] with sched := q }
      (turn s).1 = .controller ∧ s.fsm = .polling ∧ (drawAnswer (moved s)).1 = .fail 9 := by
  intro q hq; fin_cases hq <;> exact ⟨rfl, rfl, rfl⟩

/-- The three clauses, and READY = 0 with BLIMIT = 1. -/
theorem witness_PollExaminesReadyThenBandLimit :
    ∀ b ∈ [Buffer.mk 0x2A 0 0 0 0, .mk 0x6A 0 0 0 0, .mk 0xEB 0x10 0 0 0, .mk 0xAB 0x10 0 0 0],
      ∀ q ∈ [[], [Turn.controller]], let s : State := { srchState .polling Buffer.zero [.ok b] with sched := q }
        (turn s).1 = .controller ∧ s.fsm = .polling ∧ (drawAnswer (moved s)).1 = .ok b := by
  intro b _ q hq; fin_cases hq <;> exact ⟨rfl, rfl, rfl⟩

theorem witness_FoundLatchesSearchedPll : (turn (srchState .found Buffer.zero [])).1 = .controller ∧
    (turn { srchState .found Buffer.zero [] with sched := [] }).1 = .controller ∧
    (srchState .found Buffer.zero []).fsm = .found := by decide

theorem witness_BandLimitIsReported : (turn (srchState .bandLimit Buffer.zero [])).1 = .controller ∧
    (turn { srchState .bandLimit Buffer.zero [] with sched := [] }).1 = .controller ∧
    (srchState .bandLimit Buffer.zero []).fsm = .bandLimit := by decide

/-- A COMMIT word and an ABORT word, held or accepted, in each state of the controller. -/
theorem witness_UnreadyWordIsHeld :
    ∀ f ∈ [Fsm.idle, .committed, .polling, .found, .bandLimit], ∀ cw ∈ ([0x8200000000000000, 0x8800000000000000] : List Word),
      let s : State := { srchState f Buffer.zero [] with sched := [.host], cmds := [cw] }
      (turn s).1 = .host ∧ s.cmds = [cw] ∧ s.fsm = f ∧
        (readyFor f cw ↔ f = .idle ∨ ((f = .committed ∨ f = .polling) ∧ cw = 0x8800000000000000)) := by
  intro f _ cw hcw
  refine ⟨rfl, rfl, rfl, ?_⟩
  fin_cases hcw <;> cases f <;> simp only [readyFor] <;> decide

/-- V-SRCH row 4: one poll not ready, with BLIMIT = 1, then Found; and a band limit at once (row 2). -/
theorem witness_SearchRunsToItsOutcome :
    let s : State := { upOnly ⟨0x2A, 0, 0x40, 0, 0⟩ with
      cmds := [0x8700000000000001], env := [anyOk, .ok ⟨0x6A, 0, 0, 0, 0⟩, .ok ⟨0xAB, 0x10, 0, 0, 0⟩] }
    let q : State := { s with sched := [.host, .controller, .controller, .controller, .controller, .host] }
    q.sched = .host :: (List.replicate ([Buffer.mk 0x6A 0 0 0 0].length + 3) .controller ++ [.host]) ∧ q.cmds = s.cmds ∧
      s.inited = true ∧ s.fsm = .idle ∧ s.sched = [] ∧ s.cmds = [0x8700000000000001] ∧
      decode 0x8700000000000001 = .ok (.search true 1) ∧ (1 : Nat) ≤ 1 ∧
      s.env = .ok Buffer.zero :: ([Buffer.mk 0x6A 0 0 0 0].map Answer.ok ++ .ok ⟨0xAB, 0x10, 0, 0, 0⟩ :: []) ∧
      (∀ c ∈ [Buffer.mk 0x6A 0 0 0 0], readyOf c = false) ∧ readyOf ⟨0xAB, 0x10, 0, 0, 0⟩ = true ∧
      blimitOf ⟨0xAB, 0x10, 0, 0, 0⟩ = false ∧ readyOf ⟨0xEB, 0x10, 0, 0, 0⟩ = true ∧
      blimitOf ⟨0xEB, 0x10, 0, 0, 0⟩ = true := by decide

theorem witness_SearchPollsWithoutTimeout :
    let s : State := { srchState .polling Buffer.zero [.ok ⟨0x2A, 0, 0, 0, 0⟩] with
      sched := [], cmds := [0x8200000000000000] }
    let q : State := { s with sched := [.controller, .reset], cmds := [0x8800000000000000] }
    q.fsm = .polling ∧ q.sched = List.replicate [Buffer.mk 0x2A 0 0 0 0].length .controller ++ [.reset] ∧ q.env = s.env ∧
      s.fsm = .polling ∧ s.sched = [] ∧ s.cmds = [0x8200000000000000] ∧ opOf 0x8200000000000000 ≠ 0x08 ∧
      s.env = [Buffer.mk 0x2A 0 0 0 0].map Answer.ok ++ [] ∧
      ∀ c ∈ [Buffer.mk 0x2A 0 0 0 0], readyOf c = false := by decide

theorem witness_ControllerWritesOnlyPllOfUp : 
    (∃ t, (turn (srchState .found ⟨0xAB, 0x10, 0, 0, 0⟩ [])).1 = .controller ∧
      step (srchState .found ⟨0xAB, 0x10, 0, 0, 0⟩ []) = .next t) ∧
    ∃ t, (turn { srchState .found ⟨0xAB, 0x10, 0, 0, 0⟩ [] with sched := [] }).1 = .controller ∧
      step { srchState .found ⟨0xAB, 0x10, 0, 0, 0⟩ [] with sched := [] } = .next t :=
  ⟨⟨_, rfl, rfl⟩, ⟨_, rfl, rfl⟩⟩

theorem witness_AbsentHandleAnswersInvalidHandle : needsHandle (.setPll false 0x4000) = true ∧
    (encode (.setPll false 0x4000)).getLsbD 63 = false := by decide

theorem witness_GateAnswersNotInitialized : needsInit (.search true 2) = true ∧
    (encode (.search true 2)).getLsbD 63 = true ∧ State.reset.inited = false ∧ needsInit (.init true) = false ∧
    needsInit (.f2px true 0 3 false) = false := by decide

/-- A command answered with each status of R251's table. -/
theorem witness_OnlyTabledErrorsAreAnswered :
    (∃ t, exec (.getPll false) zeros = .next t ∧ .response 0x2000000000000000 ∈ t.trace) ∧
    (∃ t, exec (.getPll true) State.reset = .next t ∧ .response 0x4000000000000000 ∈ t.trace) ∧
    (∃ t, exec (.commit true) (xferState [.fail 5]) = .next t ∧ .response 0x6005000000000000 ∈ t.trace) ∧
    (∃ t, exec (.setPll true 0x4000) zeros = .next t ∧ .response 0x8000000000000000 ∈ t.trace) ∧
    (∃ t, exec (.p2fx true 0 3 true) zeros = .next t ∧ .response 0xA000000000000000 ∈ t.trace) :=
  ⟨⟨_, rfl, .head _⟩, ⟨_, rfl, .head _⟩, ⟨_, rfl, .tail _ (.head _)⟩, ⟨_, rfl, .head _⟩, ⟨_, rfl, .head _⟩⟩

theorem witness_ErrorsChangeNothing :
    ∃ t, exec (.setPll true 0x4000) zeros = .next t ∧ t.trace = zeros.trace ++ [.response 0x8000000000000000] ∧
      statusOf 0x8000000000000000 ≠ 0 ∧ statusOf 0x8000000000000000 ≠ 3 := ⟨_, rfl, rfl, by decide, by decide⟩

/-- UP as before (REFRESH), with STBY (DEINIT), with SDIR and SMODE (SEARCH). -/
theorem witness_TransportFailureResidue :
    (∃ t evs, exec (.refresh true) (xferState [.fail 0xFF]) = .next t ∧ t.trace = [] ++ evs ∧
      .response 0x60FF000000000000 ∈ evs) ∧
    (∃ t evs, exec (.deinit true) (lifeState [.fail 0x11, anyOk]) = .next t ∧ t.trace = [] ++ evs ∧
      .response 0x6011000000000000 ∈ evs ∧ t.up ≠ (lifeState []).up) ∧
    (∃ t evs, exec (.search true 1) (xferState [.fail 0x02]) = .next t ∧ t.trace = [] ++ evs ∧
      .response 0x6002000000000000 ∈ evs ∧ t.up ≠ (xferState []).up) ∧
    statusOf 0x60FF000000000000 = 3 ∧ statusOf 0x6011000000000000 = 3 ∧ statusOf 0x6002000000000000 = 3 :=
  ⟨⟨_, _, rfl, rfl, .tail _ (.head _)⟩, ⟨_, _, rfl, rfl, .tail _ (.tail _ (.head _)), by decide⟩,
    ⟨_, _, rfl, rfl, .tail _ (.head _), by decide⟩, by decide, by decide, by decide⟩

theorem witness_OnlyBusCommandsDoIo :
    (∃ t, exec (.getPll true) zeros = .next t ∧ t.trace = zeros.trace ++ [.response 0]) ∧
    doesIo (.getPll true) = false ∧
    (∃ t, exec (.commit false) zeros = .next t ∧ t.trace = zeros.trace ++ [.response 0x2000000000000000]) ∧
    doesIo (.commit false) = true ∧ statusOf 0x2000000000000000 = 1 :=
  ⟨⟨_, rfl, rfl⟩, rfl, ⟨_, rfl, rfl⟩, rfl, by decide⟩

/-- Each clause: a started SEARCH, a SEARCH that failed, an ABORT that ends a search, one that does not, another command. -/
theorem witness_OneResponsePerCommand :
    (∃ t, exec (.search true 1) (xferState [anyOk]) = .next t ∧ t.trace = [.memWrite Config.devAddr t.up .ok]) ∧
    (∃ t, exec (.search true 2) zeros = .next t ∧ t.trace = [.response 0x8000000000000000]) ∧
    (∃ t, exec (.abort true) (srchState .polling Buffer.zero []) = .next t ∧ t.fsm = .idle) ∧
    (∃ t, exec (.abort true) zeros = .next t ∧ t.fsm = .idle) ∧
    (∃ t, exec (.getPll true) zeros = .next t) :=
  ⟨⟨_, rfl, rfl⟩, ⟨_, rfl, rfl⟩, ⟨_, rfl, rfl⟩, ⟨_, rfl, rfl⟩, ⟨_, rfl⟩⟩

/-- Each clause: a command that changes UP, one that changes DOWN, one that changes INITED, one that changes FSM. -/
theorem witness_OnlyNamedWritersWrite :
    (∃ t, exec (.setMute true 1) zeros = .next t ∧ t.up ≠ zeros.up) ∧
    (∃ t, exec (.refresh true) (xferState [anyOk]) = .next t ∧ t.down ≠ (xferState []).down) ∧
    (∃ t, exec (.init true) (st Buffer.zero Buffer.zero false [anyOk]) = .next t ∧ t.inited ≠ false) ∧
    (∃ t, exec (.search true 1) (xferState [anyOk]) = .next t ∧ t.fsm ≠ (xferState []).fsm) :=
  ⟨⟨_, rfl, by decide⟩, ⟨_, rfl, by decide⟩, ⟨_, rfl, by decide⟩, ⟨_, rfl, by decide⟩⟩

/-- Each clause: DOWN as it was, DOWN replaced by a read, DOWN zeroed by INIT. -/
theorem witness_DownIsReplacedWholeOrNotAtAll :
    (∃ t, step (zeros.withFetchWord 64 0xC200000000000000) = .next t ∧ t.inited = true ∧ t.down = zeros.down) ∧
    (∃ t, step (srchState .polling Buffer.zero [.ok ⟨0xAB, 0x10, 0, 0, 0⟩]) = .next t ∧ t.inited = true ∧
      t.down = ⟨0xAB, 0x10, 0, 0, 0⟩) ∧
    (∃ t, step ((lifeState [anyOk]).withFetchWord 64 0x8000000000000000) = .next t ∧ t.inited = true ∧
      t.down ≠ (lifeState []).down) :=
  ⟨⟨_, rfl, rfl, rfl⟩, ⟨_, rfl, rfl, rfl⟩, ⟨_, rfl, rfl, by decide⟩⟩

theorem witness_StepKeepsInvariant :
    SoundState { srchState .polling Buffer.zero [.fail 9] with trace := [.sleep Config.pollIntervalMs, .response 0] } ∧
    ∃ t, step { srchState .polling Buffer.zero [.fail 9] with trace := [.sleep Config.pollIntervalMs, .response 0] } =
      .next t :=
  ⟨⟨fun _ => rfl, fun _ => by decide, fun e he => by
      rcases List.mem_cons.1 he with rfl | he
      · rfl
      · rw [List.mem_singleton.1 he]; show respOk 0 = true; decide⟩, _, rfl⟩

theorem witness_UpIsPackOfItsFields : SoundState ones ∧ ones.inited = true :=
  ⟨⟨fun _ => rfl, fun _ => by decide, fun _ he => nomatch he⟩, rfl⟩

theorem witness_UnpackInvertsPack : ∀ f, 2 ^ upWidth f - 1 < 2 ^ upWidth f := by
  intro f; cases f <;> decide

/-- A reset in a search; one inside no command, because the word on the port is held; one inside an ABORT, and one
inside a malformed word. -/
theorem witness_ResetInputUninitializes :
    ({ lifeState [] with sched := [.reset], fsm := .polling } : State).sched = [.reset] ∧
      (onPort [.resetDuring 0] .polling 0x8200000000000000).sched = [.resetDuring 0] ∧
      ¬ readyFor .polling 0x8200000000000000 ∧
      (onPort [.resetDuring 1] .polling 0x8800000000000000).sched = [.resetDuring 1] ∧
      readyFor .polling 0x8800000000000000 ∧ decode 0x8800000000000000 = .ok (.abort true) ∧
      readyFor .idle 0x8900000000000000 ∧ decode 0x8900000000000000 = .error .unassignedOp ∧
      needsInit (.abort true) = true ∧ (encode (.abort true)).getLsbD 63 = true := by
  simp only [readyFor]; decide

/-- A DEINIT, a malformed word, and the command whose last clause names its events. -/
theorem witness_ResetInsideCommandLeavesItsBusEvents :
    (insideReset 1 [anyOk] 0x8100000000000000).sched = [.resetDuring 1] ∧
      (insideReset 1 [anyOk] 0x8100000000000000).cmds = [0x8100000000000000] ∧
      (insideReset 1 [anyOk] 0x8100000000000000).fsm = .idle ∧ readyFor .idle 0x8100000000000000 ∧
      decode 0x8100000000000000 = .ok (.deinit true) ∧ decode 0x8900000000000000 = .error .unassignedOp ∧
      ∃ u, exec (.refresh true) (xferState [anyOk]) = .next u ∧
        u.trace = (xferState [anyOk]).trace ++ [.memRead Config.devAddr anyOk, .response 0] :=
  ⟨rfl, rfl, rfl, .inl rfl, by decide, by decide, _, rfl, rfl⟩

end Sys2Proof.Tests
end

/-! The commands by family, every setter and every getter being one case, and what each command's body can do. -/

namespace Sys2Proof

/-- To prove something of every command it is enough to prove it of the eleven commands that have a rule of their
own, and of the setter and the getter of any field (R101). -/
theorem Instr.family_cases {P : Instr → Prop}
    (init : ∀ hv, P (.init hv)) (deinit : ∀ hv, P (.deinit hv)) (commit : ∀ hv, P (.commit hv))
    (refresh : ∀ hv, P (.refresh hv)) (info : ∀ hv, P (.info hv)) (f2p : ∀ hv fHz, P (.f2p hv fHz))
    (f2px : ∀ hv fHz clk side, P (.f2px hv fHz clk side)) (p2f : ∀ hv pll, P (.p2f hv pll))
    (p2fx : ∀ hv pll clk side, P (.p2fx hv pll clk side)) (search : ∀ hv dir, P (.search hv dir))
    (abort : ∀ hv, P (.abort hv)) (setter : ∀ f hv v, P (setterOf hv v f)) (getter : ∀ f hv, P (getterOf hv f))
    (downGetter : ∀ f hv, P (downGetterOf hv f)) : ∀ i, P i
  | .init hv => init hv
  | .deinit hv => deinit hv
  | .commit hv => commit hv
  | .refresh hv => refresh hv
  | .info hv => info hv
  | .f2p hv fHz => f2p hv fHz
  | .f2px hv fHz clk side => f2px hv fHz clk side
  | .p2f hv pll => p2f hv pll
  | .p2fx hv pll clk side => p2fx hv pll clk side
  | .search hv dir => search hv dir
  | .abort hv => abort hv
  | .setMute hv v => setter .mute hv v
  | .setSmode hv v => setter .smode hv v
  | .setPll hv v => setter .pll hv v
  | .setSdir hv v => setter .sdir hv v
  | .setSsl hv v => setter .ssl hv v
  | .setInj hv v => setter .inj hv v
  | .setMono hv v => setter .mono hv v
  | .setRmute hv v => setter .rmute hv v
  | .setLmute hv v => setter .lmute hv v
  | .setPort1 hv v => setter .port1 hv v
  | .setPort2 hv v => setter .port2 hv v
  | .setStby hv v => setter .stby hv v
  | .setBand hv v => setter .band hv v
  | .setClk hv v => setter .clk hv v
  | .setSoftmute hv v => setter .softmute hv v
  | .setHcc hv v => setter .hcc hv v
  | .setSnc hv v => setter .snc hv v
  | .setP1ind hv v => setter .p1ind hv v
  | .setDeemph hv v => setter .deemph hv v
  | .getMute hv => getter .mute hv
  | .getSmode hv => getter .smode hv
  | .getPll hv => getter .pll hv
  | .getSdir hv => getter .sdir hv
  | .getSsl hv => getter .ssl hv
  | .getInj hv => getter .inj hv
  | .getMono hv => getter .mono hv
  | .getRmute hv => getter .rmute hv
  | .getLmute hv => getter .lmute hv
  | .getPort1 hv => getter .port1 hv
  | .getPort2 hv => getter .port2 hv
  | .getStby hv => getter .stby hv
  | .getBand hv => getter .band hv
  | .getClk hv => getter .clk hv
  | .getSoftmute hv => getter .softmute hv
  | .getHcc hv => getter .hcc hv
  | .getSnc hv => getter .snc hv
  | .getP1ind hv => getter .p1ind hv
  | .getDeemph hv => getter .deemph hv
  | .getdReady hv => downGetter .ready hv
  | .getdBlimit hv => downGetter .blimit hv
  | .getdSpll hv => downGetter .spll hv
  | .getdIfc hv => downGetter .ifc hv
  | .getdRxstereo hv => downGetter .rxstereo hv
  | .getdLevel hv => downGetter .level hv

end Sys2Proof

namespace Sys2Proof.Machine

theorem exec_setterOf (f : UpField) (hv : Bool) (v : Nat) (s : State) :
    exec (setterOf hv v f) s = .next (setter f hv v s) := by
  cases f <;> rfl

theorem exec_getterOf (f : UpField) (hv : Bool) (s : State) :
    exec (getterOf hv f) s = .next (getter f hv s) := by
  cases f <;> rfl

theorem exec_downGetterOf (f : DownField) (hv : Bool) (s : State) :
    exec (downGetterOf hv f) s = .next (downGetter f hv s) := by
  cases f <;> rfl

/-! What the body of each command can do, by the answers of the environment and the operands. -/

theorem initBody_cases (s : State) :
    (∃ e, (busAcquire s).1 = .fail e ∧ initBody s = raise (.transportFailure e) (busAcquire s).2) ∨
    ((busAcquire s).1 = .ok ∧
      initBody s = respondOk 0 ((((busAcquire s).2.setUp Buffer.zero).setDown Buffer.zero).setInited true)) := by
  cases h : (busAcquire s).1 with
  | fail e => exact .inl ⟨e, rfl, by simp [initBody, h]⟩
  | ok => exact .inr ⟨rfl, by simp [initBody, h]⟩

/-- The write's error is the one reported, whatever the release was answered (R122). -/
theorem deinitBody_cases (s : State) :
    (∃ e, (powerDown s).1 = .fail e ∧
      deinitBody s = raise (.transportFailure e) (busRelease (powerDown s).2).2) ∨
    ((powerDown s).1 = .ok ∧
      ((∃ e, (busRelease (powerDown s).2).1 = .fail e ∧
          deinitBody s = raise (.transportFailure e) (busRelease (powerDown s).2).2) ∨
        ((busRelease (powerDown s).2).1 = .ok ∧
          deinitBody s = respondOk 0 (forgetBuffers ((busRelease (powerDown s).2).2.setInited false))))) := by
  cases hw : (powerDown s).1 with
  | fail e => exact .inl ⟨e, rfl, by simp [deinitBody, hw]⟩
  | ok =>
    refine .inr ⟨rfl, ?_⟩
    cases hr : (busRelease (powerDown s).2).1 with
    | fail e => exact .inl ⟨e, rfl, by simp [deinitBody, hw, hr]⟩
    | ok => exact .inr ⟨rfl, by simp [deinitBody, hw, hr]⟩

theorem commitBody_cases (s : State) :
    (∃ e, (memWriteUp s).1 = .fail e ∧ commitBody s = raise (.transportFailure e) (memWriteUp s).2) ∨
    ((memWriteUp s).1 = .ok ∧ commitBody s = respondOk 0 (memWriteUp s).2) := by
  cases h : (memWriteUp s).1 with
  | fail e => exact .inl ⟨e, rfl, by simp [commitBody, h]⟩
  | ok => exact .inr ⟨rfl, by simp [commitBody, h]⟩

theorem refreshBody_cases (s : State) :
    (∃ e, (memRead s).1 = .fail e ∧ refreshBody s = raise (.transportFailure e) (memRead s).2) ∨
    ∃ b, (memRead s).1 = .ok b ∧ refreshBody s = respondOk 0 ((memRead s).2.setDown b) := by
  cases h : (memRead s).1 with
  | fail e => exact .inl ⟨e, rfl, by simp [refreshBody, h]⟩
  | ok b => exact .inr ⟨b, rfl, by simp [refreshBody, h]⟩

theorem searchBody_cases (dir : Nat) (s : State) :
    (∃ e, (memWriteUp (s.setUp (searchFields dir s.up))).1 = .fail e ∧
      searchBody dir s = raise (.transportFailure e) (memWriteUp (s.setUp (searchFields dir s.up))).2) ∨
    ((memWriteUp (s.setUp (searchFields dir s.up))).1 = .ok ∧
      searchBody dir s = (memWriteUp (s.setUp (searchFields dir s.up))).2.setFsm .committed) := by
  cases h : (memWriteUp (s.setUp (searchFields dir s.up))).1 with
  | fail e => exact .inl ⟨e, rfl, by simp [searchBody, h]⟩
  | ok => exact .inr ⟨rfl, by simp [searchBody, h]⟩

/-- ABORT's first part answers a search that is Committed or Polling, and does nothing otherwise (R230). -/
theorem cancelSearch_cases (s : State) :
    ((s.fsm = .committed ∨ s.fsm = .polling) ∧
      cancelSearch s = (respondOutcome outcomeCancelled 0 s).setFsm .idle) ∨
    ((s.fsm = .idle ∨ s.fsm = .found ∨ s.fsm = .bandLimit) ∧ cancelSearch s = s) := by
  cases h : s.fsm <;> simp [cancelSearch, h]

theorem f2pBody_cases (fHz : Int) (clk : Nat) (side : Bool) (s : State) :
    (f2pFn fHz clk side = none ∧ f2pBody fHz clk side s = raise .invalidClock s) ∨
    ∃ p, f2pFn fHz clk side = some p ∧
      f2pBody fHz clk side s = inRange (decide (0 ≤ p ∧ p ≤ (maxPll : Int))) s (respondOk (dataInt p) s) := by
  cases h : f2pFn fHz clk side with
  | none => exact .inl ⟨rfl, by simp [f2pBody, h]⟩
  | some p => exact .inr ⟨p, rfl, by simp [f2pBody, h]⟩

theorem p2fBody_cases (p clk : Nat) (side : Bool) (s : State) :
    (p2fFn p clk side = none ∧ p2fBody p clk side s = inRange (legalPll p) s (raise .invalidClock s)) ∨
    ∃ f, p2fFn p clk side = some f ∧ p2fBody p clk side s = inRange (legalPll p) s (respondOk (dataInt f) s) := by
  cases h : p2fFn p clk side with
  | none => exact .inl ⟨rfl, by simp [p2fBody, h]⟩
  | some f => exact .inr ⟨f, rfl, by simp [p2fBody, h]⟩

end Sys2Proof.Machine

/-! The command port: which word is accepted, and what accepting it does (R302). -/

namespace Sys2Proof.Machine

open Sys2Proof.Claims

/-- The model accepts the words R302 says TRB is ready for. -/
theorem accepts_iff_readyFor (f : Fsm) (cw : Word) : accepts f cw = true ↔ readyFor f cw := by
  cases f <;> simp [accepts, readyFor, opOf, unpackCw, abortOp]

/-- A word with ABORT's op that decodes is an ABORT (R101). -/
theorem decode_eq_abort {cw : Word} {i : Instr} (hop : opOf cw = 0x08) (hd : decode cw = .ok i) :
    ∃ hv, i = .abort hv := by
  obtain ⟨-, -, hd⟩ := decodeFields_ok.1 hd
  have hop : (unpackCw cw).op = 0x08 := hop
  simp only [decodeOp, hop] at hd
  obtain ⟨-, -, -, -, rfl⟩ := noArgForm_ok.1 hd
  exact ⟨_, rfl⟩

/-- In a running search no command but ABORT is accepted (R302). -/
theorem idle_or_abort_of_accepts {f : Fsm} {cw : Word} {i : Instr} (ha : accepts f cw = true)
    (hd : decode cw = .ok i) : f = .idle ∨ ∃ hv, i = .abort hv := by
  rcases (accepts_iff_readyFor f cw).1 ha with hf | ⟨-, hop⟩
  · exact .inl hf
  · exact .inr (decode_eq_abort hop hd)

theorem execWord_ok {cw : Word} {i : Instr} (hd : decode cw = .ok i) (s : State) : execWord cw s = exec i s := by
  simp [execWord, hd]

theorem execWord_error {cw : Word} {e : Malformed} (hd : decode cw = .error e) (s : State) :
    execWord cw s = .next (raise .illegalCommand s) := by
  simp [execWord, hd]

theorem hostStep_accepted {s : State} {cw : Word} {rest : List Word} (hc : s.cmds = cw :: rest)
    (ha : accepts s.fsm cw = true) : hostStep s = execWord cw { s with cmds := rest } := by
  simp [hostStep, hc, ha]

/-- A host's turn, scheduled or not, whose word is accepted consumes the turn and the word and executes it. -/
theorem step_accepted {s : State} {cw : Word} {rest : List Word} (ht : (turn s).1 = .host)
    (hc : s.cmds = cw :: rest) (hr : readyFor s.fsm cw) : step s = execWord cw { moved s with cmds := rest } := by
  have hm : (turn s).2 = moved s := turn_frame s
  rw [step, ht, hm]
  exact hostStep_accepted (s := moved s) hc ((accepts_iff_readyFor _ _).2 hr)

theorem decodeTableWord_eq_some {n w : Nat} {i : Instr} :
    decodeTableWord n w = some i ↔ decode (tableWord n w) = .ok i := by
  unfold decodeTableWord
  cases decode (tableWord n w) <;> simp

/-- A word that would be accepted is presented without touching FSM. -/
theorem presentWord_accepted {s : State} {cw : Word} (ha : accepts s.fsm cw = true) :
    presentWord cw s = { s with cmds := cw :: s.cmds, sched := .host :: s.sched } := by
  simp [presentWord, ha]

/-- The step after a word that would be accepted is presented executes that word on the state before. -/
theorem step_presentWord {s : State} {cw : Word} (ha : accepts s.fsm cw = true) :
    step (presentWord cw s) = execWord cw s := by
  rw [presentWord_accepted ha, step_of_turn rfl, agentStep]
  exact hostStep_accepted (s := { s with cmds := cw :: s.cmds }) rfl ha

/-- Settles O5: the turn's frame gives the state with the turn taken, and the host's step on it is the word's. -/
theorem stepRunsDecodedCommand : Obligations.StepRunsDecodedCommand := by
  unfold Obligations.StepRunsDecodedCommand
  intro s cw rest i hc hd
  refine ⟨fun ht hr => ?_, fun hs hf => ?_⟩
  · rw [step_accepted ht hc hr, execWord_ok hd]
  · have ha : accepts s.fsm cw = true := (accepts_iff_readyFor _ _).2 (.inl hf)
    rw [step_of_idle hs hf, hostStep_accepted hc ha, execWord_ok hd]

/-- Settles O6: with FSM = Idle any word presented is accepted by the next step. -/
theorem fetchWordRunsNext : Obligations.FetchWordRunsNext := by
  unfold Obligations.FetchWordRunsNext
  intro s w i hd hf
  have ha : accepts s.fsm (tableWord 64 w) = true := (accepts_iff_readyFor _ _).2 (.inl hf)
  rw [State.withFetchWord, step_presentWord ha, execWord_ok (decodeTableWord_eq_some.1 hd)]

end Sys2Proof.Machine

/-! The invariant: each command's body, the controller, and a step of each agent keep SoundState. -/

namespace Sys2Proof.Machine

/-- What INIT writes meets the invariant whatever the buffers were (R120). -/
theorem SoundState.initialized {s : State} (h : SoundState s) :
    SoundState (((s.setUp Buffer.zero).setDown Buffer.zero).setInited true) :=
  ⟨fun _ => rfl, fun _ => BitVec.zero_and, h.events⟩

/-- What a successful DEINIT writes meets it if no search runs (R121). -/
theorem SoundState.uninitialized {s : State} (h : SoundState s) (hf : s.fsm = .idle) :
    SoundState (forgetBuffers (s.setInited false)) :=
  ⟨fun hs => absurd hf hs, fun hi => Bool.noConfusion hi, h.events⟩

theorem SoundState.setUpField {s : State} (h : SoundState s) (f : UpField) (v : Nat) :
    SoundState (s.setUp (setUpField f v s.up)) :=
  h.setUp (setUpField_unassigned f v s.up)

theorem SoundState.withHandle {s b : State} (h : SoundState s) (hv : Bool) (hb : SoundState b) :
    SoundState (withHandle hv s b) := by
  cases hv
  · exact h.raise _
  · exact hb

theorem SoundState.initBody {s : State} (h : SoundState s) : SoundState (initBody s) := by
  rcases initBody_cases s with ⟨e, -, hb⟩ | ⟨-, hb⟩ <;> rw [hb]
  · exact h.busAcquire.raise _
  · exact h.busAcquire.initialized.respondOk 0

theorem SoundState.deinitBody {s : State} (h : SoundState s) (hf : s.fsm = .idle) : SoundState (deinitBody s) := by
  have hr : SoundState (Machine.busRelease (powerDown s).2).2 :=
    (h.setUpField .stby 1).memWriteUp.busRelease
  have hfr : (Machine.busRelease (powerDown s).2).2.fsm = .idle := by
    simp [busRelease_eq, powerDown, memWriteUp_eq, hf]
  rcases deinitBody_cases s with ⟨e, -, hb⟩ | ⟨-, ⟨e, -, hb⟩ | ⟨-, hb⟩⟩ <;> rw [hb]
  · exact hr.raise _
  · exact hr.raise _
  · exact (hr.uninitialized hfr).respondOk 0

theorem SoundState.commitBody {s : State} (h : SoundState s) : SoundState (commitBody s) := by
  rcases commitBody_cases s with ⟨e, -, hb⟩ | ⟨-, hb⟩ <;> rw [hb]
  · exact h.memWriteUp.raise _
  · exact h.memWriteUp.respondOk 0

theorem SoundState.refreshBody {s : State} (h : SoundState s) : SoundState (refreshBody s) := by
  rcases refreshBody_cases s with ⟨e, -, hb⟩ | ⟨b, -, hb⟩ <;> rw [hb]
  · exact h.memRead.raise _
  · exact (h.memRead.setDown b).respondOk 0

/-- A search starts only on an initialized handle (R221). -/
theorem SoundState.searchBody {s : State} (h : SoundState s) (hi : s.inited = true) (dir : Nat) :
    SoundState (searchBody dir s) := by
  have hw : SoundState (Machine.memWriteUp (s.setUp (searchFields dir s.up))).2 :=
    ((h.setUpField .sdir dir).setUpField .smode 1).memWriteUp
  rcases searchBody_cases dir s with ⟨e, -, hb⟩ | ⟨-, hb⟩ <;> rw [hb]
  · exact hw.raise _
  · exact hw.setFsm fun _ => by simp [memWriteUp_eq, hi]

theorem SoundState.cancelSearch {s : State} (h : SoundState s) : SoundState (cancelSearch s) := by
  rcases cancelSearch_cases s with ⟨-, hb⟩ | ⟨-, hb⟩ <;> rw [hb]
  · exact (h.respondOutcome _ 0).setFsm fun hf => absurd rfl hf
  · exact h

theorem SoundState.f2pBody {s : State} (h : SoundState s) (fHz : Int) (clk : Nat) (side : Bool) :
    SoundState (f2pBody fHz clk side s) := by
  rcases f2pBody_cases fHz clk side s with ⟨-, hb⟩ | ⟨p, -, hb⟩ <;> rw [hb]
  · exact h.raise _
  · exact h.inRange _ (h.respondOk _)

theorem SoundState.p2fBody {s : State} (h : SoundState s) (p clk : Nat) (side : Bool) :
    SoundState (p2fBody p clk side s) := by
  rcases p2fBody_cases p clk side s with ⟨-, hb⟩ | ⟨f, -, hb⟩ <;> rw [hb]
  · exact h.inRange _ (h.raise _)
  · exact h.inRange _ (h.respondOk _)

/-- A command completes and keeps the invariant, if no search runs when it is a DEINIT, the one command that would
leave a running search on an uninitialized handle. -/
theorem exec_keeps_sound (i : Instr) {s : State} (h : SoundState s)
    (hf : ∀ hv, i = .deinit hv → s.fsm = .idle) : ∃ t, exec i s = .next t ∧ SoundState t := by
  cases i using Instr.family_cases with
  | init hv => exact ⟨_, rfl, h.withHandle hv h.initBody⟩
  | deinit hv => exact ⟨_, rfl, h.gate hv fun _ => h.deinitBody (hf hv rfl)⟩
  | commit hv => exact ⟨_, rfl, h.gate hv fun _ => h.commitBody⟩
  | refresh hv => exact ⟨_, rfl, h.gate hv fun _ => h.refreshBody⟩
  | info hv => exact ⟨_, rfl, h.emit ⟨rfl, rfl⟩⟩
  | f2p hv fHz => exact ⟨_, rfl, h.gate hv fun _ => h.f2pBody fHz _ _⟩
  | f2px hv fHz clk side => exact ⟨_, rfl, h.f2pBody fHz clk side⟩
  | p2f hv pll => exact ⟨_, rfl, h.gate hv fun _ => h.p2fBody pll _ _⟩
  | p2fx hv pll clk side => exact ⟨_, rfl, h.p2fBody pll clk side⟩
  | search hv dir => exact ⟨_, rfl, h.gate hv fun hi => h.inRange _ (h.searchBody hi dir)⟩
  | abort hv => exact ⟨_, rfl, h.gate hv fun _ => h.cancelSearch.respondOk 0⟩
  | setter f hv v =>
    exact ⟨_, exec_setterOf f hv v s, h.gate hv fun _ => h.inRange _ ((h.setUpField f v).respondOk 0)⟩
  | getter f hv => exact ⟨_, exec_getterOf f hv s, h.gate hv fun _ => h.respondOk _⟩
  | downGetter f hv => exact ⟨_, exec_downGetterOf f hv s, h.gate hv fun _ => h.respondOk _⟩

/-- A poll keeps it while a search runs (R225, R226). -/
theorem SoundState.poll {s : State} (h : SoundState s) (hi : s.inited = true) : SoundState (poll s) := by
  have hd (b : Buffer) : ((Machine.memRead s).2.setDown b).inited = true := by simp [memRead_eq, hi]
  rcases poll_cases s with ⟨e, -, hp⟩ | ⟨b, -, ⟨-, hp⟩ | ⟨-, -, hp⟩ | ⟨-, -, hp⟩⟩ <;> rw [hp]
  · exact (h.memRead.raise _).setFsm fun hf => absurd rfl hf
  · exact (h.memRead.setDown b).emit rfl
  · exact (h.memRead.setDown b).setFsm fun _ => hd b
  · exact (h.memRead.setDown b).setFsm fun _ => hd b

theorem SoundState.controllerStep {s : State} (h : SoundState s) : SoundState (controllerStep s) := by
  have running {f : Fsm} (hs : s.fsm = f) (hf : f ≠ .idle) : s.inited = true := h.searchInited (hs ▸ hf)
  cases hs : s.fsm with
  | idle => rw [controllerStep_idle hs]; exact h
  | committed => rw [controllerStep_committed hs]; exact h.setFsm fun _ => running hs (by decide)
  | polling => rw [controllerStep_polling hs]; exact h.poll (running hs (by decide))
  | found =>
    rw [controllerStep_found hs]
    exact ((h.setUpField .pll _).respondOutcome _ _).setFsm fun hf => absurd rfl hf
  | bandLimit =>
    rw [controllerStep_bandLimit hs]
    exact (h.respondOutcome _ _).setFsm fun hf => absurd rfl hf

/-- The invariant looks at neither the ports' words to come, nor the schedule, nor the count of free values. -/
theorem SoundState.ports {s : State} (h : SoundState s) (cmds : List Word) (sched : List Turn) (drawn : Nat) :
    SoundState { s with cmds := cmds, sched := sched, drawn := drawn } :=
  ⟨h.searchInited, h.unassigned, h.events⟩

theorem SoundState.turn {s : State} (h : SoundState s) : SoundState (turn s).2 := by
  rw [turn_frame]
  exact h.ports s.cmds _ _

/-- An accepted word completes and keeps the invariant: it is no DEINIT while a search runs. -/
theorem execWord_keeps_sound {cw : Word} {s : State} (h : SoundState s) (ha : accepts s.fsm cw = true) :
    ∃ t, execWord cw s = .next t ∧ SoundState t := by
  cases hd : decode cw with
  | error e => exact ⟨_, execWord_error hd s, h.raise _⟩
  | ok i =>
    rw [execWord_ok hd]
    refine exec_keeps_sound i h fun hv hi => ?_
    rcases idle_or_abort_of_accepts ha hd with hf | ⟨hv', hi'⟩
    · exact hf
    · exact absurd (hi.symm.trans hi') (by simp)

theorem resetDuringStep_keeps_sound (done : Nat) {s : State} (h : SoundState s) :
    ∃ t, resetDuringStep done s = .next t ∧ SoundState t := by
  rcases resetDuringStep_cases done s with hr | ⟨cw, rest, -, ha, hw⟩
  · exact ⟨_, hr, h.hardwareReset⟩
  · have hc : SoundState { s with cmds := rest } := h.ports rest s.sched s.drawn
    obtain ⟨t, ht, hts⟩ := execWord_keeps_sound hc ha
    rcases hw with ⟨u, hu, hr⟩ | ⟨r, hr, -⟩ | ⟨r, hr, -⟩
    · obtain rfl : t = u := by simpa [ht] using hu
      exact ⟨_, hr, hc.dropCommand hts done⟩
    · cases r
    · exact absurd (ht.symm.trans hr) (by simp)

/-- A step of any agent completes and keeps the invariant. -/
theorem step_keeps_sound {s : State} (h : SoundState s) : ∃ t, step s = .next t ∧ SoundState t := by
  obtain ⟨r, hr, hstep⟩ := step_cases s
  have h : SoundState r := hr ▸ h.turn
  rcases hstep with hs | ⟨cw, rest, -, ha, hw⟩ | hs | hs | ⟨done, hs⟩
  · exact ⟨r, hs, h⟩
  · have hc : SoundState { r with cmds := rest } := h.ports rest r.sched r.drawn
    have hs : step s = execWord cw { r with cmds := rest } := by
      rcases hw with ⟨e, hd, hs⟩ | ⟨i, hd, hs⟩
      · rw [hs, execWord_error hd]
      · rw [hs, execWord_ok hd]
    rw [hs]
    exact execWord_keeps_sound hc ha
  · exact ⟨_, hs, h.controllerStep⟩
  · exact ⟨_, hs, h.hardwareReset⟩
  · rw [hs]
    exact resetDuringStep_keeps_sound done h

/-- Settles O55, by the agent whose turn it is: the command accepted, the controller's step, or the reset. -/
theorem stepKeepsInvariant : Obligations.StepKeepsInvariant := by
  unfold Obligations.StepKeepsInvariant
  intro s t h hs
  obtain ⟨u, hu, hsound⟩ := step_keeps_sound h
  obtain rfl : u = t := by simpa [hu] using hs
  exact hsound

/-- Settles O56: nothing is initialized, no search runs and the record is empty. -/
theorem launchStateMeetsInvariant : Obligations.LaunchStateMeetsInvariant := by
  unfold Obligations.LaunchStateMeetsInvariant
  exact ⟨rfl, rfl, fun hf => absurd rfl hf, fun hi => Bool.noConfusion hi, fun _ he => nomatch he⟩

end Sys2Proof.Machine

/-! Who writes what (R20): each state update and shared operation, under the condition that R20 names the command. -/

namespace Sys2Proof.Machine

open Sys2Proof.Claims

/-- From `s` to `t` only what R20's column "written by" gives the command `i` has been written. -/
structure WritesAsNamed (i : Instr) (s t : State) : Prop where
  up : t.up ≠ s.up → mayWriteUp i = true
  down : t.down ≠ s.down → mayWriteDown i = true
  inited : t.inited ≠ s.inited → mayWriteInited i = true
  fsm : t.fsm ≠ s.fsm → mayWriteFsm i = true
  cmds : t.cmds = s.cmds
  sched : t.sched = s.sched

namespace WritesAsNamed

theorem refl (i : Instr) (s : State) : WritesAsNamed i s s :=
  ⟨absurd rfl, absurd rfl, absurd rfl, absurd rfl, rfl, rfl⟩

variable {i : Instr} {s t : State}

theorem setUp (h : WritesAsNamed i s t) (hi : mayWriteUp i = true) (b : Buffer) : WritesAsNamed i s (t.setUp b) :=
  { h with up := fun _ => hi }

theorem setDown (h : WritesAsNamed i s t) (hi : mayWriteDown i = true) (b : Buffer) :
    WritesAsNamed i s (t.setDown b) :=
  { h with down := fun _ => hi }

theorem setInited (h : WritesAsNamed i s t) (hi : mayWriteInited i = true) (v : Bool) :
    WritesAsNamed i s (t.setInited v) :=
  { h with inited := fun _ => hi }

theorem setFsm (h : WritesAsNamed i s t) (hi : mayWriteFsm i = true) (f : Fsm) : WritesAsNamed i s (t.setFsm f) :=
  { h with fsm := fun _ => hi }

theorem forgetBuffers (h : WritesAsNamed i s t) (hu : mayWriteUp i = true) (hd : mayWriteDown i = true) :
    WritesAsNamed i s (forgetBuffers t) :=
  { h with up := fun _ => hu, down := fun _ => hd }

theorem emit (h : WritesAsNamed i s t) (e : Event) : WritesAsNamed i s (t.emit e) :=
  { h with }

theorem draw (h : WritesAsNamed i s t) : WritesAsNamed i s (drawAnswer t).2 := by
  rw [drawAnswer_frame]
  exact { h with }

theorem raise (h : WritesAsNamed i s t) (e : Err) : WritesAsNamed i s (raise e t) := h.emit _

theorem respondOutcome (h : WritesAsNamed i s t) (o : BitVec 2) (d : BitVec 40) :
    WritesAsNamed i s (respondOutcome o d t) :=
  h.emit _

theorem respondOk (h : WritesAsNamed i s t) (d : BitVec 40) : WritesAsNamed i s (respondOk d t) := h.emit _

theorem busAcquire (h : WritesAsNamed i s t) : WritesAsNamed i s (busAcquire t).2 := h.draw.emit _

theorem busRelease (h : WritesAsNamed i s t) : WritesAsNamed i s (busRelease t).2 := h.draw.emit _

theorem memWriteUp (h : WritesAsNamed i s t) : WritesAsNamed i s (memWriteUp t).2 := h.draw.emit _

theorem memRead (h : WritesAsNamed i s t) : WritesAsNamed i s (memRead t).2 := h.draw.emit _

theorem withHandle (h : WritesAsNamed i s t) (hv : Bool) : WritesAsNamed i s (withHandle hv s t) := by
  cases hv
  · exact (refl i s).raise _
  · exact h

theorem gate (h : WritesAsNamed i s t) (hv : Bool) : WritesAsNamed i s (gate hv s t) := by
  rcases gate_cases hv s t with ⟨-, e⟩ | ⟨-, -, e⟩ | ⟨-, -, e⟩ <;> rw [e]
  · exact (refl i s).raise _
  · exact (refl i s).raise _
  · exact h

theorem inRange (h : WritesAsNamed i s t) (legal : Bool) : WritesAsNamed i s (inRange legal s t) := by
  cases legal
  · exact (refl i s).raise _
  · exact h

theorem f2pBody (i : Instr) (fHz : Int) (clk : Nat) (side : Bool) (s : State) :
    WritesAsNamed i s (f2pBody fHz clk side s) := by
  rcases f2pBody_cases fHz clk side s with ⟨-, hb⟩ | ⟨p, -, hb⟩ <;> rw [hb]
  · exact (refl i s).raise _
  · exact ((refl i s).respondOk _).inRange _

theorem p2fBody (i : Instr) (p clk : Nat) (side : Bool) (s : State) :
    WritesAsNamed i s (p2fBody p clk side s) := by
  rcases p2fBody_cases p clk side s with ⟨-, hb⟩ | ⟨f, -, hb⟩ <;> rw [hb]
  · exact ((refl i s).raise _).inRange _
  · exact ((refl i s).respondOk _).inRange _

theorem initBody (hv : Bool) (s : State) : WritesAsNamed (.init hv) s (initBody s) := by
  have ha := (refl (.init hv) s).busAcquire
  rcases initBody_cases s with ⟨e, -, hb⟩ | ⟨-, hb⟩ <;> rw [hb]
  · exact ha.raise _
  · exact (((ha.setUp rfl _).setDown rfl _).setInited rfl _).respondOk 0

theorem deinitBody (hv : Bool) (s : State) : WritesAsNamed (.deinit hv) s (deinitBody s) := by
  have hr : WritesAsNamed (.deinit hv) s (Machine.busRelease (powerDown s).2).2 :=
    ((refl _ s).setUp rfl _).memWriteUp.busRelease
  rcases deinitBody_cases s with ⟨e, -, hb⟩ | ⟨-, ⟨e, -, hb⟩ | ⟨-, hb⟩⟩ <;> rw [hb]
  · exact hr.raise _
  · exact hr.raise _
  · exact ((hr.setInited rfl _).forgetBuffers rfl rfl).respondOk 0

theorem commitBody (i : Instr) (s : State) : WritesAsNamed i s (commitBody s) := by
  rcases commitBody_cases s with ⟨e, -, hb⟩ | ⟨-, hb⟩ <;> rw [hb]
  · exact (refl i s).memWriteUp.raise _
  · exact (refl i s).memWriteUp.respondOk 0

theorem refreshBody (hv : Bool) (s : State) : WritesAsNamed (.refresh hv) s (refreshBody s) := by
  rcases refreshBody_cases s with ⟨e, -, hb⟩ | ⟨b, -, hb⟩ <;> rw [hb]
  · exact (refl _ s).memRead.raise _
  · exact ((refl _ s).memRead.setDown rfl b).respondOk 0

theorem searchBody (hv : Bool) (dir : Nat) (s : State) :
    WritesAsNamed (.search hv dir) s (searchBody dir s) := by
  have hw := ((refl (.search hv dir) s).setUp rfl (searchFields dir s.up)).memWriteUp
  rcases searchBody_cases dir s with ⟨e, -, hb⟩ | ⟨-, hb⟩ <;> rw [hb]
  · exact hw.raise _
  · exact hw.setFsm rfl _

theorem cancelSearch (hv : Bool) (s : State) : WritesAsNamed (.abort hv) s (cancelSearch s) := by
  rcases cancelSearch_cases s with ⟨-, hb⟩ | ⟨-, hb⟩ <;> rw [hb]
  · exact ((refl _ s).respondOutcome _ 0).setFsm rfl _
  · exact refl _ s

end WritesAsNamed

theorem mayWriteUp_setterOf (f : UpField) (hv : Bool) (v : Nat) : mayWriteUp (setterOf hv v f) = true := by
  cases f <;> rfl

/-- A command completes and has written only what R20 gives it. -/
theorem exec_writesAsNamed (i : Instr) (s : State) : ∃ t, exec i s = .next t ∧ WritesAsNamed i s t := by
  cases i using Instr.family_cases with
  | init hv => exact ⟨_, rfl, (WritesAsNamed.initBody hv s).withHandle hv⟩
  | deinit hv => exact ⟨_, rfl, (WritesAsNamed.deinitBody hv s).gate hv⟩
  | commit hv => exact ⟨_, rfl, (WritesAsNamed.commitBody _ s).gate hv⟩
  | refresh hv => exact ⟨_, rfl, (WritesAsNamed.refreshBody hv s).gate hv⟩
  | info hv => exact ⟨_, rfl, (WritesAsNamed.refl _ s).emit _⟩
  | f2p hv fHz => exact ⟨_, rfl, (WritesAsNamed.f2pBody _ fHz _ _ s).gate hv⟩
  | f2px hv fHz clk side => exact ⟨_, rfl, WritesAsNamed.f2pBody _ fHz clk side s⟩
  | p2f hv pll => exact ⟨_, rfl, (WritesAsNamed.p2fBody _ pll _ _ s).gate hv⟩
  | p2fx hv pll clk side => exact ⟨_, rfl, WritesAsNamed.p2fBody _ pll clk side s⟩
  | search hv dir => exact ⟨_, rfl, ((WritesAsNamed.searchBody hv dir s).inRange _).gate hv⟩
  | abort hv => exact ⟨_, rfl, ((WritesAsNamed.cancelSearch hv s).respondOk 0).gate hv⟩
  | setter f hv v =>
    have hw := ((WritesAsNamed.refl (setterOf hv v f) s).setUp (mayWriteUp_setterOf f hv v) (setUpField f v s.up))
    exact ⟨_, exec_setterOf f hv v s, ((hw.respondOk 0).inRange _).gate hv⟩
  | getter f hv => exact ⟨_, exec_getterOf f hv s, ((WritesAsNamed.refl _ s).respondOk _).gate hv⟩
  | downGetter f hv => exact ⟨_, exec_downGetterOf f hv s, ((WritesAsNamed.refl _ s).respondOk _).gate hv⟩

/-- Settles O52, command by command, each update of a command's body being one R20 names. -/
theorem onlyNamedWritersWrite : Obligations.OnlyNamedWritersWrite := by
  unfold Obligations.OnlyNamedWritersWrite
  intro i s t ht
  obtain ⟨u, hu, h⟩ := exec_writesAsNamed i s
  obtain rfl : u = t := by simpa [hu] using ht
  exact ⟨h.up, h.down, h.inited, h.fsm, h.cmds, h.sched⟩

end Sys2Proof.Machine

/-! What a command adds to the record: events of one kind, and which commands add bus and sleep events (R61). -/

namespace Sys2Proof.Machine

open Sys2Proof.Claims

/-- From `s` to `t` the record has grown, by events that satisfy `P`. -/
def AddsOnly (P : Event → Prop) (s t : State) : Prop := ∃ evs, t.trace = s.trace ++ evs ∧ ∀ e ∈ evs, P e

namespace AddsOnly

theorem refl (P : Event → Prop) (s : State) : AddsOnly P s s := ⟨[], by simp, fun _ he => nomatch he⟩

variable {P : Event → Prop} {s t : State}

theorem emit (h : AddsOnly P s t) {e : Event} (he : P e) : AddsOnly P s (t.emit e) := by
  obtain ⟨evs, ht, hevs⟩ := h
  refine ⟨evs ++ [e], by simp [ht], fun x hx => ?_⟩
  rcases List.mem_append.1 hx with hx | hx
  · exact hevs x hx
  · rw [List.mem_singleton.1 hx]; exact he

theorem grows (h : AddsOnly P s t) : ∃ evs, t.trace = s.trace ++ evs := h.imp fun _ hevs => hevs.1

theorem draw (h : AddsOnly P s t) : AddsOnly P s (drawAnswer t).2 := by
  rw [AddsOnly, drawAnswer_trace]; exact h

theorem setUp (h : AddsOnly P s t) (b : Buffer) : AddsOnly P s (t.setUp b) := h
theorem setDown (h : AddsOnly P s t) (b : Buffer) : AddsOnly P s (t.setDown b) := h
theorem setInited (h : AddsOnly P s t) (v : Bool) : AddsOnly P s (t.setInited v) := h
theorem setFsm (h : AddsOnly P s t) (f : Fsm) : AddsOnly P s (t.setFsm f) := h
theorem forgetBuffers (h : AddsOnly P s t) : AddsOnly P s (forgetBuffers t) := h

/-- Whatever the record is known to have grown by satisfies `P`. -/
theorem of_append (h : AddsOnly P s t) {evs : List Event} (ht : t.trace = s.trace ++ evs) : ∀ e ∈ evs, P e := by
  obtain ⟨evs', ht', h⟩ := h
  rwa [List.append_cancel_left (ht.symm.trans ht')]

end AddsOnly

/-- No bus or sleep event, so only answers (R61). -/
abbrev AddsNoIo : State → State → Prop := AddsOnly fun e => isIo e = false

/-- A response of status OK or TransportFailure, or no response at all. -/
def NotRefusal : Event → Prop
  | .response rw => statusOf rw = 0 ∨ statusOf rw = 3
  | _ => True

theorem statusOf_respWord (st : BitVec 3) (o : BitVec 2) (e : Byte) (d : BitVec 40) :
    statusOf (respWord st o e d) = st :=
  (respWord_fields st o e d).1

theorem notRefusal_transportFailure (e : Byte) : NotRefusal (.response (errWord (.transportFailure e))) :=
  .inr (statusOf_respWord _ _ _ _)

theorem notRefusal_ok (o : BitVec 2) (d : BitVec 40) : NotRefusal (.response (respWord 0 o 0 d)) :=
  .inl (statusOf_respWord _ _ _ _)

/-! The bodies of the five commands that do I/O answer OK or TransportFailure. -/

theorem initBody_notRefusal (s : State) : AddsOnly NotRefusal s (initBody s) := by
  have ha : AddsOnly NotRefusal s (busAcquire s).2 := (AddsOnly.refl _ s).draw.emit trivial
  rcases initBody_cases s with ⟨e, -, hb⟩ | ⟨-, hb⟩ <;> rw [hb]
  · exact ha.emit (notRefusal_transportFailure e)
  · exact (((ha.setUp _).setDown _).setInited true).emit (notRefusal_ok _ 0)

theorem deinitBody_notRefusal (s : State) : AddsOnly NotRefusal s (deinitBody s) := by
  have hw : AddsOnly NotRefusal s (powerDown s).2 := ((AddsOnly.refl _ s).setUp _).draw.emit trivial
  have hr : AddsOnly NotRefusal s (busRelease (powerDown s).2).2 := hw.draw.emit trivial
  rcases deinitBody_cases s with ⟨e, -, hb⟩ | ⟨-, ⟨e, -, hb⟩ | ⟨-, hb⟩⟩ <;> rw [hb]
  · exact hr.emit (notRefusal_transportFailure e)
  · exact hr.emit (notRefusal_transportFailure e)
  · exact (hr.setInited false).forgetBuffers.emit (notRefusal_ok _ 0)

theorem commitBody_notRefusal (s : State) : AddsOnly NotRefusal s (commitBody s) := by
  have hw : AddsOnly NotRefusal s (memWriteUp s).2 := (AddsOnly.refl _ s).draw.emit trivial
  rcases commitBody_cases s with ⟨e, -, hb⟩ | ⟨-, hb⟩ <;> rw [hb]
  · exact hw.emit (notRefusal_transportFailure e)
  · exact hw.emit (notRefusal_ok _ 0)

theorem refreshBody_notRefusal (s : State) : AddsOnly NotRefusal s (refreshBody s) := by
  have hr : AddsOnly NotRefusal s (memRead s).2 := (AddsOnly.refl _ s).draw.emit trivial
  rcases refreshBody_cases s with ⟨e, -, hb⟩ | ⟨b, -, hb⟩ <;> rw [hb]
  · exact hr.emit (notRefusal_transportFailure e)
  · exact (hr.setDown b).emit (notRefusal_ok _ 0)

theorem searchBody_notRefusal (dir : Nat) (s : State) : AddsOnly NotRefusal s (searchBody dir s) := by
  have hw : AddsOnly NotRefusal s (memWriteUp (s.setUp (searchFields dir s.up))).2 :=
    ((AddsOnly.refl _ s).setUp _).draw.emit trivial
  rcases searchBody_cases dir s with ⟨e, -, hb⟩ | ⟨-, hb⟩ <;> rw [hb]
  · exact hw.emit (notRefusal_transportFailure e)
  · exact hw.setFsm _

/-! The other commands, and every refusal, add only answers. -/

namespace AddsNoIo

variable {s t : State}

theorem raise (e : Err) (s : State) : AddsNoIo s (raise e s) := (AddsOnly.refl _ s).emit rfl

theorem respondOutcome (o : BitVec 2) (d : BitVec 40) (s : State) : AddsNoIo s (respondOutcome o d s) :=
  (AddsOnly.refl _ s).emit rfl

theorem respondOk (d : BitVec 40) (s : State) : AddsNoIo s (respondOk d s) := respondOutcome _ d s

theorem inRange (h : AddsNoIo s t) (legal : Bool) : AddsNoIo s (inRange legal s t) := by
  cases legal
  · exact raise _ s
  · exact h

theorem f2pBody (fHz : Int) (clk : Nat) (side : Bool) (s : State) : AddsNoIo s (f2pBody fHz clk side s) := by
  rcases f2pBody_cases fHz clk side s with ⟨-, hb⟩ | ⟨p, -, hb⟩ <;> rw [hb]
  · exact raise _ s
  · exact (respondOk _ s).inRange _

theorem p2fBody (p clk : Nat) (side : Bool) (s : State) : AddsNoIo s (p2fBody p clk side s) := by
  rcases p2fBody_cases p clk side s with ⟨-, hb⟩ | ⟨f, -, hb⟩ <;> rw [hb]
  · exact (raise _ s).inRange _
  · exact (respondOk _ s).inRange _

theorem cancelSearch (s : State) : AddsNoIo s (cancelSearch s) := by
  rcases cancelSearch_cases s with ⟨-, hb⟩ | ⟨-, hb⟩ <;> rw [hb]
  · exact (respondOutcome _ 0 s).setFsm _
  · exact AddsOnly.refl _ s

end AddsNoIo

/-- What R61 allows the command `i` to add in going from `s` to `t`: no I/O, or, if it is one of the five that do
I/O, nothing that refuses it. -/
def IoAsAllowed (i : Instr) (s t : State) : Prop :=
  AddsNoIo s t ∨ (doesIo i = true ∧ AddsOnly NotRefusal s t)

namespace IoAsAllowed

variable {i : Instr} {s t : State}

theorem grows (h : IoAsAllowed i s t) : ∃ evs, t.trace = s.trace ++ evs := by
  rcases h with h | ⟨-, h⟩
  · exact h.grows
  · exact h.grows

theorem withHandle (h : IoAsAllowed i s t) (hv : Bool) : IoAsAllowed i s (withHandle hv s t) := by
  cases hv
  · exact .inl (AddsNoIo.raise _ s)
  · exact h

theorem gate (h : IoAsAllowed i s t) (hv : Bool) : IoAsAllowed i s (gate hv s t) := by
  rcases gate_cases hv s t with ⟨-, e⟩ | ⟨-, -, e⟩ | ⟨-, -, e⟩ <;> rw [e]
  · exact .inl (AddsNoIo.raise _ s)
  · exact .inl (AddsNoIo.raise _ s)
  · exact h

theorem inRange (h : IoAsAllowed i s t) (legal : Bool) : IoAsAllowed i s (inRange legal s t) := by
  cases legal
  · exact .inl (AddsNoIo.raise _ s)
  · exact h

end IoAsAllowed

/-- A command completes, and adds to the record what R61 allows it. -/
theorem exec_ioAsAllowed (i : Instr) (s : State) : ∃ t, exec i s = .next t ∧ IoAsAllowed i s t := by
  cases i using Instr.family_cases with
  | init hv => exact ⟨_, rfl, IoAsAllowed.withHandle (.inr ⟨rfl, initBody_notRefusal s⟩) hv⟩
  | deinit hv => exact ⟨_, rfl, IoAsAllowed.gate (.inr ⟨rfl, deinitBody_notRefusal s⟩) hv⟩
  | commit hv => exact ⟨_, rfl, IoAsAllowed.gate (.inr ⟨rfl, commitBody_notRefusal s⟩) hv⟩
  | refresh hv => exact ⟨_, rfl, IoAsAllowed.gate (.inr ⟨rfl, refreshBody_notRefusal s⟩) hv⟩
  | info hv => exact ⟨_, rfl, .inl ((AddsOnly.refl _ s).emit rfl)⟩
  | f2p hv fHz => exact ⟨_, rfl, IoAsAllowed.gate (.inl (AddsNoIo.f2pBody fHz _ _ s)) hv⟩
  | f2px hv fHz clk side => exact ⟨_, rfl, .inl (AddsNoIo.f2pBody fHz clk side s)⟩
  | p2f hv pll => exact ⟨_, rfl, IoAsAllowed.gate (.inl (AddsNoIo.p2fBody pll _ _ s)) hv⟩
  | p2fx hv pll clk side => exact ⟨_, rfl, .inl (AddsNoIo.p2fBody pll clk side s)⟩
  | search hv dir =>
    exact ⟨_, rfl, (IoAsAllowed.inRange (.inr ⟨rfl, searchBody_notRefusal dir s⟩) _).gate hv⟩
  | abort hv => exact ⟨_, rfl, IoAsAllowed.gate (.inl ((AddsNoIo.cancelSearch s).emit rfl)) hv⟩
  | setter f hv v =>
    have hw : AddsNoIo s (setBody f v s) := ((AddsOnly.refl _ s).setUp _).emit rfl
    exact ⟨_, exec_setterOf f hv v s, IoAsAllowed.gate (.inl (hw.inRange _)) hv⟩
  | getter f hv => exact ⟨_, exec_getterOf f hv s, IoAsAllowed.gate (.inl (AddsNoIo.respondOk _ s)) hv⟩
  | downGetter f hv => exact ⟨_, exec_downGetterOf f hv s, IoAsAllowed.gate (.inl (AddsNoIo.respondOk _ s)) hv⟩

/-- Settles O50: a command either adds no I/O at all, or is one of the five and answers OK or TransportFailure. -/
theorem onlyBusCommandsDoIo : Obligations.OnlyBusCommandsDoIo := by
  unfold Obligations.OnlyBusCommandsDoIo
  intro i s t evs ht hevs
  obtain ⟨u, hu, h⟩ := exec_ioAsAllowed i s
  obtain rfl : u = t := by simpa [hu] using ht
  rcases h with hno | ⟨hio, hans⟩
  · exact ⟨fun _ => hno.of_append hevs, fun _ _ _ _ => hno.of_append hevs⟩
  · refine ⟨fun hi => absurd (hio.symm.trans hi) (by decide), fun rw hrw h0 h3 => ?_⟩
    have hst : statusOf rw = 0 ∨ statusOf rw = 3 := hans.of_append hevs _ hrw
    exact absurd hst (not_or.2 ⟨h0, h3⟩)

end Sys2Proof.Machine

/-! How DOWN changes (R59): by a command, by the search controller, and by a step of each agent. -/

namespace Sys2Proof.Machine

open Sys2Proof.Claims

/-- From `s` to `t`, if the handle is then initialized: DOWN is as it was, or one successful read that the record shows,
or INIT's zeros with the acquire that the record shows (R59, R120). -/
def DownWhole (s t : State) : Prop :=
  t.inited = true → ∃ evs, t.trace = s.trace ++ evs ∧
    (t.down = s.down ∨ .memRead Config.devAddr (.ok t.down) ∈ evs ∨
      (.busAcquire .ok ∈ evs ∧ t.down = ⟨0, 0, 0, 0, 0⟩))

namespace DownWhole

variable {s t : State}

theorem of_down_eq (hg : ∃ evs, t.trace = s.trace ++ evs) (hd : t.down = s.down) : DownWhole s t := by
  obtain ⟨evs, ht⟩ := hg
  exact fun _ => ⟨evs, ht, .inl hd⟩

theorem of_not_inited (h : t.inited = false) : DownWhole s t := fun hi => absurd (h.symm.trans hi) (by decide)

theorem refl (s : State) : DownWhole s s := of_down_eq ⟨[], by simp⟩ rfl

/-- It looks at neither the words, nor the schedule, nor the count of free values the step starts from. -/
theorem of_ports {cmds : List Word} {sched : List Turn} {drawn : Nat}
    (h : DownWhole { s with cmds := cmds, sched := sched, drawn := drawn } t) : DownWhole s t := h

theorem raise (e : Err) (s : State) : DownWhole s (raise e s) := of_down_eq ⟨_, rfl⟩ rfl

/-- Storing the bytes of a successful read, and more events after it. -/
theorem of_memRead {b : Buffer} {evs : List Event} (hb : (drawAnswer s).1 = .ok b) (hd : t.down = b)
    (ht : t.trace = (memRead s).2.trace ++ evs) : DownWhole s t :=
  fun _ => ⟨.memRead Config.devAddr (.ok b) :: evs, by simp [ht, memRead_eq, hb], .inr (.inl (by simp [hd]))⟩

theorem withHandle (h : DownWhole s t) (hv : Bool) : DownWhole s (withHandle hv s t) := by
  cases hv
  · exact raise _ s
  · exact h

theorem gate (h : DownWhole s t) (hv : Bool) : DownWhole s (gate hv s t) := by
  rcases gate_cases hv s t with ⟨-, e⟩ | ⟨-, -, e⟩ | ⟨-, -, e⟩ <;> rw [e]
  · exact raise _ s
  · exact raise _ s
  · exact h

theorem initBody (s : State) : DownWhole s (initBody s) := by
  rcases initBody_cases s with ⟨e, -, hb⟩ | ⟨ha, hb⟩
  · exact of_down_eq (initBody_notRefusal s).grows (by simp [hb, raise_eq, busAcquire_eq])
  · have ha : ackOf (drawAnswer s).1 = .ok := ha
    exact fun _ => ⟨[.busAcquire .ok, .response 0], by simp [hb, respondOk_eq, busAcquire_eq, ha],
      .inr (.inr ⟨by simp, by rw [hb]; rfl⟩)⟩

/-- A DEINIT that fails keeps DOWN, and one that succeeds leaves no initialized handle (R121, R122). -/
theorem deinitBody (s : State) : DownWhole s (deinitBody s) := by
  have kept : (busRelease (powerDown s).2).2.down = s.down := by simp [busRelease_eq, powerDown, memWriteUp_eq]
  have grows := (deinitBody_notRefusal s).grows
  rcases deinitBody_cases s with ⟨e, -, hb⟩ | ⟨-, ⟨e, -, hb⟩ | ⟨-, hb⟩⟩
  · exact of_down_eq grows (by rw [hb]; exact kept)
  · exact of_down_eq grows (by rw [hb]; exact kept)
  · exact of_not_inited (by rw [hb]; rfl)

theorem refreshBody (s : State) : DownWhole s (refreshBody s) := by
  rcases refreshBody_cases s with ⟨e, -, hb⟩ | ⟨b, ha, hb⟩
  · exact of_down_eq (refreshBody_notRefusal s).grows (by simp [hb, raise_eq, memRead_eq])
  · rw [hb]
    exact of_memRead ha rfl rfl

end DownWhole

/-- R20 names three commands that write DOWN. -/
theorem eq_of_mayWriteDown {i : Instr} (h : mayWriteDown i = true) :
    (∃ hv, i = .init hv) ∨ (∃ hv, i = .deinit hv) ∨ ∃ hv, i = .refresh hv := by
  match i, h with
  | .init hv, _ => exact .inl ⟨hv, rfl⟩
  | .deinit hv, _ => exact .inr (.inl ⟨hv, rfl⟩)
  | .refresh hv, _ => exact .inr (.inr ⟨hv, rfl⟩)

/-- A command that R20 does not let write DOWN keeps it; the other three write it whole. -/
theorem exec_downWhole {i : Instr} {s t : State} (h : exec i s = .next t) : DownWhole s t := by
  obtain ⟨u, hu, hw⟩ := exec_writesAsNamed i s
  obtain rfl : u = t := by simpa [hu] using h
  obtain ⟨v, hx, hio⟩ := exec_ioAsAllowed i s
  obtain rfl : v = u := by simpa [hx] using h
  by_cases hd : v.down = s.down
  · exact .of_down_eq hio.grows hd
  · rcases eq_of_mayWriteDown (hw.down hd) with ⟨hv, rfl⟩ | ⟨hv, rfl⟩ | ⟨hv, rfl⟩
    · rw [← Host.Outcome.next.inj h]
      exact (DownWhole.initBody s).withHandle hv
    · rw [← Host.Outcome.next.inj h]
      exact (DownWhole.deinitBody s).gate hv
    · rw [← Host.Outcome.next.inj h]
      exact (DownWhole.refreshBody s).gate hv

/-- The controller writes DOWN only by a poll's read (R225). -/
theorem controllerStep_downWhole (s : State) : DownWhole s (controllerStep s) := by
  cases hs : s.fsm with
  | idle => rw [controllerStep_idle hs]; exact .refl s
  | committed => rw [controllerStep_committed hs]; exact .refl s
  | polling =>
    rw [controllerStep_polling hs]
    rcases poll_cases s with ⟨e, -, hp⟩ | ⟨b, hb, ⟨-, hp⟩ | ⟨-, -, hp⟩ | ⟨-, -, hp⟩⟩ <;> rw [hp]
    · have hr : AddsOnly NotRefusal s (memRead s).2 := (AddsOnly.refl _ s).draw.emit trivial
      exact .of_down_eq ((hr.emit (notRefusal_transportFailure e)).setFsm .idle).grows (by simp [raise_eq, memRead_eq])
    · exact .of_memRead hb rfl rfl
    · exact .of_memRead hb rfl (List.append_nil _).symm
    · exact .of_memRead hb rfl (List.append_nil _).symm
  | found => rw [controllerStep_found hs]; exact .of_down_eq ⟨_, rfl⟩ rfl
  | bandLimit => rw [controllerStep_bandLimit hs]; exact .of_down_eq ⟨_, rfl⟩ rfl

/-- A reset, inside a command or not, leaves no initialized handle (R290). -/
theorem resetDuringStep_not_inited {done : Nat} {s t : State} (h : resetDuringStep done s = .next t) :
    t.inited = false := by
  rcases resetDuringStep_cases done s with hr | ⟨cw, rest, -, -, ⟨u, -, hr⟩ | ⟨r, -, hr⟩ | ⟨r, -, hr⟩⟩
  · rw [← Host.Outcome.next.inj (hr.symm.trans h)]; rfl
  · rw [← Host.Outcome.next.inj (hr.symm.trans h)]; rfl
  · cases r
  · exact absurd (hr.symm.trans h) (by simp)

/-- Settles O53, by the agent whose turn it is: the command accepted, the controller's step, or the reset. -/
theorem downIsReplacedWholeOrNotAtAll : Obligations.DownIsReplacedWholeOrNotAtAll := by
  unfold Obligations.DownIsReplacedWholeOrNotAtAll
  intro s t ht
  show DownWhole s t
  obtain ⟨r, hr, hstep⟩ := step_cases s
  rw [turn_frame] at hr
  subst hr
  rcases hstep with hs | ⟨cw, rest, -, -, ⟨e, -, hs⟩ | ⟨i, -, hs⟩⟩ | hs | hs | ⟨done, hs⟩ <;> rw [hs] at ht
  · rw [← Host.Outcome.next.inj ht]; exact DownWhole.refl _
  · rw [← Host.Outcome.next.inj ht]; exact DownWhole.raise _ _
  · exact .of_ports (exec_downWhole ht)
  · rw [← Host.Outcome.next.inj ht]; exact controllerStep_downWhole _
  · rw [← Host.Outcome.next.inj ht]; exact .of_not_inited rfl
  · exact .of_not_inited (resetDuringStep_not_inited ht)

end Sys2Proof.Machine

/-! The command word: the decoder's opcode map by form, and its two round trips with the encoder (R95, R101, R102). -/

namespace Sys2Proof

/-! An operand that fits its part of the word reads back from it (R95, R96). -/

theorem toNat_ofNat_of_argFits {v : Nat} (h : argFits v = true) : (BitVec.ofNat 40 v).toNat = v :=
  Nat.mod_eq_of_lt (of_decide_eq_true h)

theorem toNat_ofNat_of_clkFits {clk : Nat} (h : clkFits clk = true) : (BitVec.ofNat 2 clk).toNat = clk :=
  Nat.mod_eq_of_lt (of_decide_eq_true h)

theorem toInt_ofInt_of_hzFits {fHz : Int} (h : hzFits fHz = true) : (BitVec.ofInt 40 fHz).toInt = fHz := by
  have hb : -(2 ^ 39) ≤ fHz ∧ fHz < 2 ^ 39 := of_decide_eq_true h
  exact BitVec.toInt_ofInt_eq_self (by decide) hb.1 hb.2

/-! What a part of the word reads fits the operand it becomes. -/

theorem argFits_argNat (f : CwFields) : argFits (argNat f) = true := decide_eq_true f.arg.isLt

theorem clkFits_toNat (clk : BitVec 2) : clkFits clk.toNat = true := decide_eq_true clk.isLt

theorem hzFits_argInt (f : CwFields) : hzFits (argInt f) = true :=
  decide_eq_true ⟨f.arg.le_toInt, f.arg.toInt_lt⟩

/-! Setters and getters as one case each. -/

theorem wellFormed_setterOf (f : UpField) (hv : Bool) (v : Nat) : wellFormed (setterOf hv v f) = argFits v := by
  cases f <;> rfl

theorem decodeFields_setterOf (f : UpField) (hv : Bool) (v : Nat) :
    decodeFields (encodeFields (setterOf hv v f)) = .ok (setterOf hv (BitVec.ofNat 40 v).toNat f) := by
  cases f <;> rfl

theorem decodeFields_getterOf (f : UpField) (hv : Bool) :
    decodeFields (encodeFields (getterOf hv f)) = .ok (getterOf hv f) := by
  cases f <;> rfl

theorem decodeFields_downGetterOf (f : DownField) (hv : Bool) :
    decodeFields (encodeFields (downGetterOf hv f)) = .ok (downGetterOf hv f) := by
  cases f <;> rfl

/-- The fields of a command's word decode to the command, if its operands fit them. -/
theorem decodeFields_encodeFields {i : Instr} (hw : wellFormed i = true) :
    decodeFields (encodeFields i) = .ok i := by
  have explicit {a : Bool} {clk : Nat} (h : (a && clkFits clk) = true) : a = true ∧ (BitVec.ofNat 2 clk).toNat = clk :=
    ⟨(Bool.and_eq_true_iff.1 h).1, toNat_ofNat_of_clkFits (Bool.and_eq_true_iff.1 h).2⟩
  cases i using Instr.family_cases with
  | init hv => rfl
  | deinit hv => rfl
  | commit hv => rfl
  | refresh hv => rfl
  | info hv => rfl
  | f2p hv fHz => exact congrArg (fun z => Except.ok (Instr.f2p hv z)) (toInt_ofInt_of_hzFits hw)
  | f2px hv fHz clk side =>
    obtain ⟨hz, hc⟩ := explicit hw
    exact congrArg₂ (fun z c => Except.ok (Instr.f2px hv z c side)) (toInt_ofInt_of_hzFits hz) hc
  | p2f hv pll => exact congrArg (fun p => Except.ok (Instr.p2f hv p)) (toNat_ofNat_of_argFits hw)
  | p2fx hv pll clk side =>
    obtain ⟨hp, hc⟩ := explicit hw
    exact congrArg₂ (fun p c => Except.ok (Instr.p2fx hv p c side)) (toNat_ofNat_of_argFits hp) hc
  | search hv dir => exact congrArg (fun d => Except.ok (Instr.search hv d)) (toNat_ofNat_of_argFits hw)
  | abort hv => rfl
  | setter f hv v =>
    rw [wellFormed_setterOf] at hw
    rw [decodeFields_setterOf, toNat_ofNat_of_argFits hw]
  | getter f hv => exact decodeFields_getterOf f hv
  | downGetter f hv => exact decodeFields_downGetterOf f hv

/-- Settles O1: the word's fields are the command's, and they decode to it. -/
theorem decodeEncodeRoundTrip : Obligations.DecodeEncodeRoundTrip := by
  unfold Obligations.DecodeEncodeRoundTrip
  intro i hw
  rw [decode, encode, unpackCw_packCw, decodeFields_encodeFields hw]

/-! The opcode map by form. -/

/-- The forms of a command word, by what its operands are (R95, R96). -/
inductive OpForm where
  | noArg
  | arg
  | conv
  | unassigned

/-- The form of the words with a given `op` (R101, R102). -/
def opForm (op : BitVec 7) : OpForm :=
  if (0x09 ≤ op.toNat ∧ op.toNat ≤ 0x1F) ∨ (0x33 ≤ op.toNat ∧ op.toNat ≤ 0x3F) ∨
      (0x53 ≤ op.toNat ∧ op.toNat ≤ 0x5F) ∨ 0x66 ≤ op.toNat then .unassigned
  else if op.toNat = 0x05 ∨ op.toNat = 0x06 then .conv
  else if op.toNat ≤ 0x04 ∨ op.toNat = 0x08 ∨ 0x40 ≤ op.toNat then .noArg
  else .arg

/-- What the opcode map answers, by the form of the word: the command of each form is one whose word has the fields
that are being decoded, as far as that form lets them be set. -/
inductive DecodesByForm (f : CwFields) : Except Malformed Instr → Prop
  | noArg {i : Instr} {op : BitVec 7} (he : encodeFields i = plainFields f.hv op 0) (hw : wellFormed i = true)
      (hop : f.op.toNat = op.toNat) (hf : opForm op = .noArg) : DecodesByForm f (noArgForm f i)
  | arg {i : Instr} {op : BitVec 7} (he : encodeFields i = plainFields f.hv op f.arg) (hw : wellFormed i = true)
      (hop : f.op.toNat = op.toNat) (hf : opForm op = .arg) : DecodesByForm f (plainForm f i)
  | conv {c e : Instr} {op : BitVec 7} (hce : encodeFields c = plainFields f.hv op f.arg) (hcw : wellFormed c = true)
      (hee : encodeFields e = explicitFields f.hv op f.clk.toNat f.side f.arg) (hew : wellFormed e = true)
      (hop : f.op.toNat = op.toNat) (hf : opForm op = .conv) : DecodesByForm f (convForm f c e)
  | unassigned (hf : opForm f.op = .unassigned) : DecodesByForm f (.error .unassignedOp)

/-- Each row of R101's map has the form of its op. The rows are closed form by form. -/
theorem decodeOp_byForm (f : CwFields) : DecodesByForm f (decodeOp f) := by
  have harg : BitVec.ofNat 40 (argNat f) = f.arg := by simp [argNat]
  have hint : BitVec.ofInt 40 (argInt f) = f.arg := BitVec.ofInt_toInt ..
  have hclk := clkFits_toNat f.clk
  unfold decodeOp
  split
  case h_54 =>
    simp only [imp_false] at *
    exact .unassigned (if_pos (by omega))
  all_goals rename_i h
  any_goals exact .noArg rfl rfl h rfl
  any_goals exact .arg (congrArg _ harg) (argFits_argNat f) h rfl
  · exact .conv (congrArg _ hint) (hzFits_argInt f) (congrArg _ hint)
      (Bool.and_eq_true_iff.2 ⟨hzFits_argInt f, hclk⟩) h rfl
  · exact .conv (congrArg _ harg) (argFits_argNat f) (congrArg _ harg)
      (Bool.and_eq_true_iff.2 ⟨argFits_argNat f, hclk⟩) h rfl

/-- Fields that are zero where the plain forms demand it are those of a plain word. -/
theorem plainFields_eq_self {f : CwFields} {op : BitVec 7} (hop : f.op.toNat = op.toNat) (hz1 : f.z1 = 0)
    (hz2 : f.z2 = 0) (hs : f.src = false) (hc : f.clk = 0) (hd : f.side = false) :
    plainFields f.hv op f.arg = f := by
  obtain rfl : f.op = op := BitVec.eq_of_toNat_eq hop
  cases f
  simp_all [plainFields]

theorem explicitFields_eq_self {f : CwFields} {op : BitVec 7} (hop : f.op.toNat = op.toNat) (hz1 : f.z1 = 0)
    (hz2 : f.z2 = 0) (hs : f.src = true) : explicitFields f.hv op f.clk.toNat f.side f.arg = f := by
  obtain rfl : f.op = op := BitVec.eq_of_toNat_eq hop
  cases f
  simp_all [explicitFields]

/-- Fields that decode are those of the word of the command they decode to, and its operands fit them. -/
theorem encodeFields_of_decodeFields {f : CwFields} {i : Instr} (h : decodeFields f = .ok i) :
    encodeFields i = f ∧ wellFormed i = true := by
  obtain ⟨hz1, hz2, ho⟩ := decodeFields_ok.1 h
  have hform := decodeOp_byForm f
  generalize decodeOp f = r at hform ho
  cases hform with
  | noArg he hw hop _ =>
    obtain ⟨ha, hs, hc, hd, rfl⟩ := noArgForm_ok.1 ho
    exact ⟨he.trans (ha ▸ plainFields_eq_self hop hz1 hz2 hs hc hd), hw⟩
  | arg he hw hop _ =>
    obtain ⟨hs, hc, hd, rfl⟩ := plainForm_ok.1 ho
    exact ⟨he.trans (plainFields_eq_self hop hz1 hz2 hs hc hd), hw⟩
  | conv hce hcw hee hew hop _ =>
    rcases convForm_ok.1 ho with ⟨hs, rfl⟩ | ⟨hs, hc, hd, rfl⟩
    · exact ⟨hee.trans (explicitFields_eq_self hop hz1 hz2 hs), hew⟩
    · exact ⟨hce.trans (plainFields_eq_self hop hz1 hz2 hs hc hd), hcw⟩
  | unassigned _ => cases ho

/-- Settles O2, by the form of the command: what each form accepts leaves no field of the word free. -/
theorem encodeDecodeRoundTrip : Obligations.EncodeDecodeRoundTrip := by
  unfold Obligations.EncodeDecodeRoundTrip
  intro cw i h
  obtain ⟨he, hw⟩ := encodeFields_of_decodeFields h
  exact ⟨by rw [encode, he, packCw_unpackCw], hw⟩

end Sys2Proof

/-! The words R102 calls malformed, and the step that accepts one. -/

namespace Sys2Proof

open Sys2Proof.Machine Sys2Proof.Claims

theorem decodeFields_error {f : CwFields} :
    (∃ e, decodeFields f = .error e) ↔ f.z1 ≠ 0 ∨ f.z2 ≠ 0 ∨ ∃ e, decodeOp f = .error e := by
  unfold decodeFields
  split_ifs <;> simp_all

/-- Bits 46 to 44 are not zero exactly when `clk` or `side` is not. -/
theorem clk_side_ne_zero_iff (cw : Word) :
    cw.extractLsb' 44 3 ≠ 0 ↔ (unpackCw cw).clk ≠ 0 ∨ (unpackCw cw).side = true := by
  rw [← not_iff_not]
  simp only [unpackCw, not_or, not_not, extract_eq_zero_iff, Bool.not_eq_true]
  constructor
  · exact fun h => ⟨fun i _ _ => h i (by omega) (by omega), h 44 (by omega) (by omega)⟩
  · rintro ⟨hc, hd⟩ i hi hi'
    rcases Nat.eq_or_lt_of_le hi with rfl | hi
    · exact hd
    · exact hc i (by omega) (by omega)

/-- Bits 47 to 44 are not zero exactly when `src`, `clk` or `side` is not. -/
theorem src_clk_side_ne_zero_iff (cw : Word) :
    cw.extractLsb' 44 4 ≠ 0 ↔ (unpackCw cw).src = true ∨ (unpackCw cw).clk ≠ 0 ∨ (unpackCw cw).side = true := by
  rw [← clk_side_ne_zero_iff, ← not_iff_not]
  simp only [unpackCw, not_or, not_not, extract_eq_zero_iff, Bool.not_eq_true]
  constructor
  · exact fun h => ⟨h 47 (by omega) (by omega), fun i _ _ => h i (by omega) (by omega)⟩
  · rintro ⟨hs, hcd⟩ i hi hi'
    rcases Nat.lt_or_ge i 47 with hlt | hge
    · exact hcd i hi (by omega)
    · obtain rfl : i = 47 := by omega
      exact hs

/-- What R102 refuses in a word of each form, `z1` and `z2` apart. -/
def refusedByForm (f : CwFields) : OpForm → Prop
  | .noArg => f.arg ≠ 0 ∨ f.src = true ∨ f.clk ≠ 0 ∨ f.side = true
  | .arg => f.src = true ∨ f.clk ≠ 0 ∨ f.side = true
  | .conv => f.src = false ∧ (f.clk ≠ 0 ∨ f.side = true)
  | .unassigned => True

theorem decodeOp_error (f : CwFields) : (∃ e, decodeOp f = .error e) ↔ refusedByForm f (opForm f.op) := by
  have hform := decodeOp_byForm f
  generalize decodeOp f = r at hform ⊢
  cases hform with
  | noArg _ _ hop hf => rw [BitVec.eq_of_toNat_eq hop, hf]; exact noArgForm_error
  | arg _ _ hop hf => rw [BitVec.eq_of_toNat_eq hop, hf]; exact plainForm_error
  | conv _ _ _ _ hop hf => rw [BitVec.eq_of_toNat_eq hop, hf]; exact convForm_error
  | unassigned hf => rw [hf]; exact ⟨fun _ => trivial, fun _ => ⟨_, rfl⟩⟩

/-- R102's list, form by form. -/
theorem r102Malformed_iff (cw : Word) :
    R102Malformed cw ↔ (unpackCw cw).z1 ≠ 0 ∨ (unpackCw cw).z2 ≠ 0 ∨
      refusedByForm (unpackCw cw) (opForm (unpackCw cw).op) := by
  have hop : (opOf cw).toNat = (unpackCw cw).op.toNat := rfl
  have hz1 : cw.extractLsb' 48 8 = (unpackCw cw).z1 := rfl
  have hz2 : cw.extractLsb' 40 4 = (unpackCw cw).z2 := rfl
  have hsrc : cw.getLsbD 47 = (unpackCw cw).src := rfl
  have harg : argOf cw = (unpackCw cw).arg := rfl
  simp only [R102Malformed, hop, hz1, hz2, hsrc, harg, src_clk_side_ne_zero_iff, clk_side_ne_zero_iff]
  generalize unpackCw cw = f
  unfold opForm
  split_ifs with hu hc hz
  · rcases hu with h | h | h | h <;> simp [refusedByForm, h]
  · rcases hc with h | h <;> simp [refusedByForm, h]
  · simp only [not_or] at hu hc
    simp [refusedByForm, hu, hc, hz, or_comm, or_left_comm, or_assoc]
  · simp only [not_or] at hu hc
    simp [refusedByForm, hu, hc, hz]

/-- Settles O3, by the form of the word: what each form refuses is R102's list for its op. -/
theorem decoderRefusesExactlyMalformedWords : Obligations.DecoderRefusesExactlyMalformedWords := by
  unfold Obligations.DecoderRefusesExactlyMalformedWords
  intro cw
  rw [decode, decodeFields_error, decodeOp_error, r102Malformed_iff]

/-- Settles O4: the host's turn accepts the word, the decoder refuses it, and an error is one response. -/
theorem malformedWordAnswersIllegalCommand : Obligations.MalformedWordAnswersIllegalCommand := by
  unfold Obligations.MalformedWordAnswersIllegalCommand
  intro s cw rest ht hc hr hm
  obtain ⟨e, hd⟩ := (decoderRefusesExactlyMalformedWords cw).2 hm
  rw [step_accepted ht hc hr, execWord_error hd, raise_eq, errWord_illegalCommand, answered]

/-- Settles O7, by running the decoder on each word. -/
theorem sampleWordsDecode : Obligations.SampleWordsDecode := by
  unfold Obligations.SampleWordsDecode
  decide

end Sys2Proof

/-! Fields of a buffer: a write reads back and leaves every other field (R85), and the packer and the unpacker of R84. -/

namespace Sys2Proof

open Sys2Proof.Machine

/-! One part of a byte. -/

/-- The mask of the part is `w` bits from its shift up (R80). -/
def Loc.spans (l : Loc) (w : Nat) : Bool :=
  decide (l.shift + w ≤ 8 ∧ ∀ i : Fin 8, l.mask.getLsbD i = decide (l.shift ≤ i ∧ i < l.shift + w))

theorem Loc.spans_iff {l : Loc} {w : Nat} :
    l.spans w = true ↔ l.shift + w ≤ 8 ∧ ∀ i < 8, l.mask.getLsbD i = decide (l.shift ≤ i ∧ i < l.shift + w) := by
  simp only [Loc.spans, decide_eq_true_eq, Fin.forall_iff]

/-- The parts share no bit. -/
def Loc.disjoint (l m : Loc) : Bool := decide (l.byte ≠ m.byte ∨ l.mask &&& m.mask = 0)

theorem testBit_readLoc (l : Loc) (b : Buffer) (i : Nat) :
    (readLoc l b).testBit i = ((b.get l.byte).getLsbD (l.shift + i) && l.mask.getLsbD (l.shift + i)) := by
  simp [readLoc, BitVec.testBit_toNat]

/-- The bits of a part that spans `w` bits are the byte's, and there are `w` of them. -/
theorem testBit_readLoc_of_spans {l : Loc} {w : Nat} (h : l.spans w = true) (b : Buffer) (i : Nat) :
    (readLoc l b).testBit i = (decide (i < w) && (b.get l.byte).getLsbD (l.shift + i)) := by
  obtain ⟨hw, hm⟩ := Loc.spans_iff.1 h
  rw [testBit_readLoc]
  by_cases hi : l.shift + i < 8
  · simp [hm _ hi, Bool.and_comm]
  · simp [show ¬ i < w by omega, BitVec.getLsbD_of_ge l.mask (l.shift + i) (by omega)]

theorem readLoc_lt_of_spans {l : Loc} {w : Nat} (h : l.spans w = true) (b : Buffer) : readLoc l b < 2 ^ w := by
  apply Nat.lt_pow_two_of_testBit
  intro i hi
  simp [testBit_readLoc_of_spans h, Nat.not_lt.2 hi]

/-- A part moved back to its place is the byte under the mask. -/
theorem ofNat_readLoc_shift {l : Loc} {k : Nat} (hk : l.shift = k) (hm : l.mask >>> k <<< k = l.mask) (b : Buffer) :
    BitVec.ofNat 8 (readLoc l b <<< k) = b.get l.byte &&& l.mask := by
  apply BitVec.eq_of_getLsbD_eq
  intro i hi
  simp only [BitVec.getLsbD_ofNat, hi, decide_true, Bool.true_and, Nat.testBit_shiftLeft, testBit_readLoc, hk,
    BitVec.getLsbD_and]
  by_cases hs : k ≤ i
  · simp [hs, Nat.add_sub_cancel' hs]
  · rw [← hm]
    simp [hs, Nat.lt_of_not_le hs]

theorem ofNat_readLoc {l : Loc} (hk : l.shift = 0) (b : Buffer) :
    BitVec.ofNat 8 (readLoc l b) = b.get l.byte &&& l.mask :=
  ofNat_readLoc_shift (k := 0) hk (by simp) b

/-- A part written reads back. -/
theorem readLoc_writeLoc_same {l : Loc} {w v : Nat} (h : l.spans w = true) (hv : v < 2 ^ w) (b : Buffer) :
    readLoc l (writeLoc l v b) = v := by
  obtain ⟨hw, hm⟩ := Loc.spans_iff.1 h
  apply Nat.eq_of_testBit_eq
  intro i
  rw [testBit_readLoc_of_spans h]
  by_cases hi : i < w
  · have h8 : l.shift + i < 8 := by omega
    rw [getLsbD_writeLoc l v b _ h8, hm _ h8, if_pos (by simp [hi]), BitVec.getLsbD_shiftLeft, Nat.add_sub_cancel_left,
      BitVec.getLsbD_ofNat]
    simp [hi, h8, show i < 8 by omega]
  · have hlt : v < 2 ^ i := lt_of_lt_of_le hv (Nat.pow_le_pow_right (by decide) (by omega))
    simp [hi, Nat.testBit_lt_two_pow hlt]

/-- A part that shares no bit with the one written keeps its value. -/
theorem readLoc_writeLoc_other {l m : Loc} (h : l.disjoint m = true) (v : Nat) (b : Buffer) :
    readLoc l (writeLoc m v b) = readLoc l b := by
  by_cases hb : l.byte = m.byte
  · have hm : l.mask &&& m.mask = 0 := (of_decide_eq_true h).resolve_left (absurd hb)
    have hkeep : (writeLoc m v b).get l.byte &&& l.mask = b.get l.byte &&& l.mask := by
      apply BitVec.eq_of_getLsbD_eq
      intro i hi
      have hbit : (l.mask.getLsbD i && m.mask.getLsbD i) = false := by
        rw [← BitVec.getLsbD_and, hm]; exact BitVec.getLsbD_zero
      rw [BitVec.getLsbD_and, BitVec.getLsbD_and, hb, getLsbD_writeLoc m v b i hi]
      cases hl : l.mask.getLsbD i
      · simp
      · simp_all
    rw [readLoc, hkeep, readLoc]
  · rw [readLoc, get_writeLoc_other m v b hb, readLoc]

/-! A field, of one part or two. -/

/-- The parts a field is read from. -/
def Layout.parts : Layout → List Loc
  | .one l => [l]
  | .two hi lo _ => [hi, lo]

/-- The layout holds a field of `w` bits: its parts span them and share no bit. -/
def Layout.holds (w : Nat) : Layout → Bool
  | .one l => l.spans w
  | .two hi lo k => decide (k ≤ w) && hi.spans (w - k) && lo.spans k && hi.disjoint lo

/-- No part of one layout shares a bit with a part of the other. -/
def Layout.disjoint (y z : Layout) : Bool := y.parts.all fun l => z.parts.all fun m => l.disjoint m

theorem readLayout_one (l : Loc) (b : Buffer) : readLayout (.one l) b = readLoc l b := rfl

theorem readLayout_two_div (hi : Loc) {lo : Loc} {w n : Nat} (h : lo.spans w = true) (hn : n = 2 ^ w) (b : Buffer) :
    readLayout (.two hi lo w) b / n = readLoc hi b := by
  have hlo := readLoc_lt_of_spans h b
  rw [readLayout, hn, ← Nat.shiftLeft_add_eq_or_of_lt hlo, Nat.shiftLeft_eq, Nat.mul_comm,
    Nat.mul_add_div (by positivity), Nat.div_eq_of_lt hlo, Nat.add_zero]

theorem readLayout_two_shiftRight (hi : Loc) {lo : Loc} {w : Nat} (h : lo.spans w = true) (b : Buffer) :
    readLayout (.two hi lo w) b >>> w = readLoc hi b := by
  rw [Nat.shiftRight_eq_div_pow, readLayout_two_div hi h rfl]

theorem readLayout_two_mod (hi : Loc) {lo : Loc} {w n : Nat} (h : lo.spans w = true) (hn : n = 2 ^ w) (b : Buffer) :
    readLayout (.two hi lo w) b % n = readLoc lo b := by
  have hlo := readLoc_lt_of_spans h b
  rw [readLayout, hn, ← Nat.shiftLeft_add_eq_or_of_lt hlo, Nat.shiftLeft_eq, Nat.mul_comm, Nat.mul_add_mod,
    Nat.mod_eq_of_lt hlo]

theorem readLayout_writeLayout_same {y : Layout} {w v : Nat} (h : y.holds w = true) (hv : v < 2 ^ w) (b : Buffer) :
    readLayout y (writeLayout y v b) = v := by
  cases y with
  | one l => exact readLoc_writeLoc_same h hv b
  | two hi lo k =>
    simp only [Layout.holds, Bool.and_eq_true, decide_eq_true_eq] at h
    obtain ⟨⟨⟨hk, hhi⟩, hlo⟩, hd⟩ := h
    have hvhi : v >>> k < 2 ^ (w - k) := by
      rw [Nat.shiftRight_eq_div_pow, Nat.div_lt_iff_lt_mul (by positivity), ← Nat.pow_add, Nat.sub_add_cancel hk]
      exact hv
    have hvlo : v % 2 ^ k < 2 ^ k := Nat.mod_lt _ (by positivity)
    rw [readLayout, writeLayout, readLoc_writeLoc_other hd, readLoc_writeLoc_same hhi hvhi,
      readLoc_writeLoc_same hlo hvlo, ← Nat.shiftLeft_add_eq_or_of_lt hvlo, Nat.shiftLeft_eq,
      Nat.shiftRight_eq_div_pow, Nat.div_add_mod']

theorem readLayout_writeLayout_other {y z : Layout} (h : y.disjoint z = true) (v : Nat) (b : Buffer) :
    readLayout y (writeLayout z v b) = readLayout y b := by
  have hpart {l m : Loc} (hl : l ∈ y.parts) (hm : m ∈ z.parts) : l.disjoint m = true :=
    List.all_eq_true.1 (List.all_eq_true.1 h l hl) m hm
  have hkeep {l : Loc} (hl : l ∈ y.parts) : readLoc l (writeLayout z v b) = readLoc l b := by
    cases z with
    | one m => exact readLoc_writeLoc_other (hpart hl (by simp [Layout.parts])) v b
    | two hi lo k =>
      rw [writeLayout, readLoc_writeLoc_other (hpart hl (by simp [Layout.parts])),
        readLoc_writeLoc_other (hpart hl (by simp [Layout.parts]))]
  cases y with
  | one l => exact hkeep (by simp [Layout.parts])
  | two hi lo k =>
    rw [readLayout, hkeep (by simp [Layout.parts]), hkeep (by simp [Layout.parts]), readLayout]

/-! The nineteen fields of the up buffer. -/

/-- The fields of the up buffer, in the order of their ids (R80). -/
def upFields : List UpField :=
  [.mute, .smode, .pll, .sdir, .ssl, .inj, .mono, .rmute, .lmute, .port1, .port2, .stby, .band, .clk, .softmute, .hcc,
    .snc, .p1ind, .deemph]

theorem mem_upFields (f : UpField) : f ∈ upFields := by
  cases f <;> decide

theorem upLayout_holds (f : UpField) : (upLayout f).holds (upWidth f) = true := by
  cases f <;> decide

theorem upLayout_disjoint {f g : UpField} (h : g ≠ f) : (upLayout g).disjoint (upLayout f) = true := by
  have all : ∀ g ∈ upFields, ∀ f ∈ upFields, g ≠ f → (upLayout g).disjoint (upLayout f) = true := by decide
  exact all g (mem_upFields g) f (mem_upFields f) h

theorem upField_setUpField_same {f : UpField} {v : Nat} (hv : v < 2 ^ upWidth f) (b : Buffer) :
    upField f (setUpField f v b) = v :=
  readLayout_writeLayout_same (upLayout_holds f) hv b

theorem upField_setUpField_other {f g : UpField} (h : g ≠ f) (v : Nat) (b : Buffer) :
    upField g (setUpField f v b) = upField g b :=
  readLayout_writeLayout_other (upLayout_disjoint h) v b

/-! The packer (R84). -/

/-- A buffer whose unassigned bits are zero is the packer's function of its fields: each term of the packer is a byte
under a field's mask, and the masks of a byte cover it. -/
theorem packFields_upField {b : Buffer} (h : b.b4 &&& 0x3F#8 = 0#8) : packFields (fun f => upField f b) = b := by
  have cover (x m : Byte) (hm : m = 0xFF#8) : x &&& m = x := by rw [hm]; exact BitVec.and_allOnes
  have hb4 : b.b4 &&& (0x80 ||| 0x40) = b.b4 := by
    have hall := cover b.b4 (0x80 ||| 0x40 ||| 0x3F#8) rfl
    rwa [BitVec.and_or_distrib_left, h, BitVec.or_zero] at hall
  simp (disch := decide) only [packFields, upField, upLayout, readLayout_one, readLayout_two_div, readLayout_two_mod,
    readLayout_two_shiftRight, BitVec.ofNat_or, ofNat_readLoc, ofNat_readLoc_shift, ← BitVec.and_or_distrib_left,
    Buffer.get]
  simp (disch := decide) only [cover, hb4]

/-- The buffer in which the fields of the list have been written, over a buffer of zeros. -/
def writeFields (v : UpField → Nat) (fs : List UpField) : Buffer :=
  fs.foldr (fun f b => setUpField f (v f) b) Buffer.zero

theorem writeFields_unassigned (v : UpField → Nat) (fs : List UpField) : (writeFields v fs).b4 &&& 0x3F#8 = 0#8 := by
  induction fs with
  | nil => exact BitVec.zero_and
  | cons f fs ih => exact (setUpField_unassigned f (v f) (writeFields v fs)).trans ih

theorem upField_writeFields {v : UpField → Nat} (hv : ∀ f, v f < 2 ^ upWidth f) {fs : List UpField} {f : UpField}
    (hf : f ∈ fs) : upField f (writeFields v fs) = v f := by
  induction fs with
  | nil => cases hf
  | cons g fs ih =>
    by_cases h : f = g
    · subst h
      exact upField_setUpField_same (hv f) _
    · exact (upField_setUpField_other h (v g) _).trans (ih ((List.mem_cons.1 hf).resolve_left h))

/-- The packer packs what writing each field in turn leaves. -/
theorem packFields_eq_writeFields {v : UpField → Nat} (hv : ∀ f, v f < 2 ^ upWidth f) :
    packFields v = writeFields v upFields := by
  have hread : (fun f => upField f (writeFields v upFields)) = v :=
    funext fun f => upField_writeFields hv (mem_upFields f)
  rw [← packFields_upField (writeFields_unassigned v upFields), hread]

end Sys2Proof

namespace Sys2Proof.Machine

open Sys2Proof.Claims

/-- Settles O57: the invariant's zero bits are all the packer needs. -/
theorem upIsPackOfItsFields : Obligations.UpIsPackOfItsFields := by
  unfold Obligations.UpIsPackOfItsFields
  intro s hs hi
  exact (packFields_upField (hs.unassigned hi)).symm

/-- Settles O58: the packed buffer is the one in which the nineteen fields were written one by one, and each reads
back. -/
theorem unpackInvertsPack : Obligations.UnpackInvertsPack := by
  unfold Obligations.UnpackInvertsPack
  intro v hv f
  rw [packFields_eq_writeFields hv, upField_writeFields hv (mem_upFields f)]

/-! Setting and getting a field (R85). -/

/-- A legal value fits the width of its field (R96, R80). -/
theorem lt_of_legalSet {f : UpField} {v : Nat} (h : legalSet f v = true) : v < 2 ^ upWidth f := by
  cases f
  all_goals
    have hle := of_decide_eq_true h
    simp only [maxPll, upWidth] at hle ⊢
    omega

theorem exec_setterOf_legal {f : UpField} {v : Nat} {s : State} (hi : s.inited = true) (hv : legalSet f v = true) :
    exec (setterOf true v f) s = .next (setBody f v s) := by
  rw [exec_setterOf, setter, hv, inRange_true, gate, withHandle_true, withInit_of_inited hi]

theorem exec_getterOf_inited (f : UpField) {s : State} (hi : s.inited = true) :
    exec (getterOf true f) s = .next (answered (BitVec.ofNat 64 (upField f s.up)) s) := by
  have hlt : upField f s.up < 2 ^ 40 := lt_trans (upField_lt f s.up) (by decide)
  have hdata : (dataNat (upField f s.up)).setWidth 64 = BitVec.ofNat 64 (upField f s.up) := by
    rw [dataNat, BitVec.setWidth_ofNat_of_le_of_lt (by decide) hlt]
  rw [exec_getterOf, getter, gate, withHandle_true, withInit_of_inited hi, respondOk_eq, hdata, answered]

theorem answered_injective {x y : Word} {s : State} (h : answered x s = answered y s) : x = y := by
  simpa [answered] using h

/-- Settles O14: a setter writes its field, a getter answers what its field reads, and no two fields share a bit. -/
theorem setThenGetIsolatesFields : Obligations.SetThenGetIsolatesFields := by
  unfold Obligations.SetThenGetIsolatesFields
  intro f v s hi hv
  refine ⟨_, exec_setterOf_legal hi hv, fun g x hx => ?_⟩
  rw [exec_getterOf_inited g hi] at hx
  obtain rfl := answered_injective (Host.Outcome.next.inj hx)
  have hup : (setBody f v s).up = setUpField f v s.up := rfl
  rw [exec_getterOf_inited g (s := setBody f v s) hi, hup]
  split_ifs with hg
  · rw [hg, upField_setUpField_same (lt_of_legalSet hv)]
  · rw [upField_setUpField_other hg]

end Sys2Proof.Machine

/-! How many responses a command adds to the record (R98, R220, R230). -/

namespace Sys2Proof.Machine

open Sys2Proof.Claims

/-- From `s` to `t` the record has grown, by events of which `n` are responses. -/
def AddsResponses (n : Nat) (s t : State) : Prop :=
  ∃ evs, t.trace = s.trace ++ evs ∧ (evs.filter isResponse).length = n

namespace AddsResponses

theorem refl (s : State) : AddsResponses 0 s s := ⟨[], by simp, rfl⟩

variable {n : Nat} {s t : State}

theorem respond (h : AddsResponses n s t) {e : Event} (he : isResponse e = true) :
    AddsResponses (n + 1) s (t.emit e) := by
  obtain ⟨evs, ht, hn⟩ := h
  exact ⟨evs ++ [e], by simp [ht], by simp [List.filter_append, he, hn]⟩

theorem silent (h : AddsResponses n s t) {e : Event} (he : isResponse e = false) : AddsResponses n s (t.emit e) := by
  obtain ⟨evs, ht, hn⟩ := h
  exact ⟨evs ++ [e], by simp [ht], by simp [List.filter_append, he, hn]⟩

theorem draw (h : AddsResponses n s t) : AddsResponses n s (drawAnswer t).2 := by
  rw [AddsResponses, drawAnswer_trace]; exact h

theorem setUp (h : AddsResponses n s t) (b : Buffer) : AddsResponses n s (t.setUp b) := h
theorem setDown (h : AddsResponses n s t) (b : Buffer) : AddsResponses n s (t.setDown b) := h
theorem setInited (h : AddsResponses n s t) (v : Bool) : AddsResponses n s (t.setInited v) := h
theorem setFsm (h : AddsResponses n s t) (f : Fsm) : AddsResponses n s (t.setFsm f) := h
theorem forgetBuffers (h : AddsResponses n s t) : AddsResponses n s (forgetBuffers t) := h

theorem raise (h : AddsResponses n s t) (e : Err) : AddsResponses (n + 1) s (raise e t) := h.respond rfl

theorem respondOutcome (h : AddsResponses n s t) (o : BitVec 2) (d : BitVec 40) :
    AddsResponses (n + 1) s (respondOutcome o d t) :=
  h.respond rfl

theorem respondOk (h : AddsResponses n s t) (d : BitVec 40) : AddsResponses (n + 1) s (respondOk d t) :=
  h.respond rfl

theorem busAcquire (h : AddsResponses n s t) : AddsResponses n s (busAcquire t).2 := h.draw.silent rfl
theorem busRelease (h : AddsResponses n s t) : AddsResponses n s (busRelease t).2 := h.draw.silent rfl
theorem memWriteUp (h : AddsResponses n s t) : AddsResponses n s (memWriteUp t).2 := h.draw.silent rfl
theorem memRead (h : AddsResponses n s t) : AddsResponses n s (memRead t).2 := h.draw.silent rfl

/-! A refusal is one response, so a check keeps the count of a body that answers once. -/

theorem withHandle (h : AddsResponses 1 s t) (hv : Bool) : AddsResponses 1 s (withHandle hv s t) := by
  cases hv
  · exact (refl s).raise _
  · exact h

theorem gate (h : AddsResponses 1 s t) (hv : Bool) : AddsResponses 1 s (gate hv s t) := by
  rcases gate_cases hv s t with ⟨-, e⟩ | ⟨-, -, e⟩ | ⟨-, -, e⟩ <;> rw [e]
  · exact (refl s).raise _
  · exact (refl s).raise _
  · exact h

theorem inRange (h : AddsResponses 1 s t) (legal : Bool) : AddsResponses 1 s (inRange legal s t) := by
  cases legal
  · exact (refl s).raise _
  · exact h

theorem initBody (s : State) : AddsResponses 1 s (initBody s) := by
  have ha := (refl s).busAcquire
  rcases initBody_cases s with ⟨e, -, hb⟩ | ⟨-, hb⟩ <;> rw [hb]
  · exact ha.raise _
  · exact (((ha.setUp _).setDown _).setInited true).respondOk 0

theorem deinitBody (s : State) : AddsResponses 1 s (deinitBody s) := by
  have hw : AddsResponses 0 s (powerDown s).2 := ((refl s).setUp _).memWriteUp
  have hr := hw.busRelease
  rcases deinitBody_cases s with ⟨e, -, hb⟩ | ⟨-, ⟨e, -, hb⟩ | ⟨-, hb⟩⟩ <;> rw [hb]
  · exact hr.raise _
  · exact hr.raise _
  · exact (hr.setInited false).forgetBuffers.respondOk 0

theorem commitBody (s : State) : AddsResponses 1 s (commitBody s) := by
  have hw := (refl s).memWriteUp
  rcases commitBody_cases s with ⟨e, -, hb⟩ | ⟨-, hb⟩ <;> rw [hb]
  · exact hw.raise _
  · exact hw.respondOk 0

theorem refreshBody (s : State) : AddsResponses 1 s (refreshBody s) := by
  have hr := (refl s).memRead
  rcases refreshBody_cases s with ⟨e, -, hb⟩ | ⟨b, -, hb⟩ <;> rw [hb]
  · exact hr.raise _
  · exact (hr.setDown b).respondOk 0

theorem f2pBody (fHz : Int) (clk : Nat) (side : Bool) (s : State) : AddsResponses 1 s (f2pBody fHz clk side s) := by
  rcases f2pBody_cases fHz clk side s with ⟨-, hb⟩ | ⟨p, -, hb⟩ <;> rw [hb]
  · exact (refl s).raise _
  · exact ((refl s).respondOk _).inRange _

theorem p2fBody (p clk : Nat) (side : Bool) (s : State) : AddsResponses 1 s (p2fBody p clk side s) := by
  rcases p2fBody_cases p clk side s with ⟨-, hb⟩ | ⟨f, -, hb⟩ <;> rw [hb]
  · exact ((refl s).raise _).inRange _
  · exact ((refl s).respondOk _).inRange _

end AddsResponses

/-- A command other than SEARCH and ABORT completes and answers once (R98). -/
theorem exec_answersOnce {i : Instr} (hs : ∀ hv dir, i ≠ .search hv dir) (ha : ∀ hv, i ≠ .abort hv) (s : State) :
    ∃ t, exec i s = .next t ∧ AddsResponses 1 s t := by
  have zero := AddsResponses.refl s
  cases i using Instr.family_cases with
  | init hv => exact ⟨_, rfl, (AddsResponses.initBody s).withHandle hv⟩
  | deinit hv => exact ⟨_, rfl, (AddsResponses.deinitBody s).gate hv⟩
  | commit hv => exact ⟨_, rfl, (AddsResponses.commitBody s).gate hv⟩
  | refresh hv => exact ⟨_, rfl, (AddsResponses.refreshBody s).gate hv⟩
  | info hv => exact ⟨_, rfl, zero.respond rfl⟩
  | f2p hv fHz => exact ⟨_, rfl, (AddsResponses.f2pBody fHz _ _ s).gate hv⟩
  | f2px hv fHz clk side => exact ⟨_, rfl, AddsResponses.f2pBody fHz clk side s⟩
  | p2f hv pll => exact ⟨_, rfl, (AddsResponses.p2fBody pll _ _ s).gate hv⟩
  | p2fx hv pll clk side => exact ⟨_, rfl, AddsResponses.p2fBody pll clk side s⟩
  | search hv dir => exact absurd rfl (hs hv dir)
  | abort hv => exact absurd rfl (ha hv)
  | setter f hv v => exact ⟨_, exec_setterOf f hv v s, (((zero.setUp _).respondOk 0).inRange _).gate hv⟩
  | getter f hv => exact ⟨_, exec_getterOf f hv s, (zero.respondOk _).gate hv⟩
  | downGetter f hv => exact ⟨_, exec_downGetterOf f hv s, (zero.respondOk _).gate hv⟩

/-- From `s` to `t` a SEARCH has added only its successful commit, or it has answered (R220, R222). -/
def SearchAnswers (s t : State) : Prop :=
  t.trace = s.trace ++ [.memWrite Config.devAddr t.up .ok] ∨ AddsResponses 1 s t

theorem searchBody_answers (dir : Nat) (s : State) : SearchAnswers s (searchBody dir s) := by
  have hw := ((AddsResponses.refl s).setUp (searchFields dir s.up)).memWriteUp
  rcases searchBody_cases dir s with ⟨e, -, hb⟩ | ⟨hok, hb⟩ <;> rw [hb]
  · exact .inr (hw.raise _)
  · have hok : ackOf (drawAnswer (s.setUp (searchFields dir s.up))).1 = .ok := hok
    exact .inl (by simp [memWriteUp_eq, hok])

theorem exec_search_answers (hv : Bool) (dir : Nat) (s : State) :
    ∃ t, exec (.search hv dir) s = .next t ∧ SearchAnswers s t := by
  have zero := AddsResponses.refl s
  refine ⟨_, rfl, ?_⟩
  rcases gate_cases hv s (inRange (legalDirection dir) s (searchBody dir s)) with ⟨-, e⟩ | ⟨-, -, e⟩ | ⟨-, -, e⟩ <;>
    rw [e]
  · exact .inr (zero.raise _)
  · exact .inr (zero.raise _)
  · cases legalDirection dir
    · exact .inr (zero.raise _)
    · exact searchBody_answers dir s

/-- An ABORT that ends a search moves FSM and answers the search and itself; any other keeps FSM and answers itself
(R230). -/
theorem exec_abort_answers (hv : Bool) (s : State) :
    ∃ t, exec (.abort hv) s = .next t ∧ AddsResponses (if t.fsm = s.fsm then 1 else 2) s t := by
  have zero := AddsResponses.refl s
  refine ⟨_, rfl, ?_⟩
  rcases gate_cases hv s (respondOk 0 (cancelSearch s)) with ⟨-, e⟩ | ⟨-, -, e⟩ | ⟨-, -, e⟩ <;> rw [e]
  · rw [if_pos (by rfl)]; exact zero.raise _
  · rw [if_pos (by rfl)]; exact zero.raise _
  · rcases cancelSearch_cases s with ⟨hf, hb⟩ | ⟨-, hb⟩ <;> rw [hb]
    · have hne : Fsm.idle ≠ s.fsm := by rcases hf with hf | hf <;> simp [hf]
      rw [if_neg (by exact hne)]
      exact ((zero.respondOutcome _ 0).setFsm .idle).respondOk 0
    · rw [if_pos (by rfl)]; exact zero.respondOk 0

/-- Settles O51: SEARCH and ABORT by what each does to the search, and every other command by its one answer. -/
theorem oneResponsePerCommand : Obligations.OneResponsePerCommand := by
  unfold Obligations.OneResponsePerCommand
  intro i s t ht
  by_cases hs : ∃ hv dir, i = .search hv dir
  · obtain ⟨hv, dir, rfl⟩ := hs
    obtain ⟨u, hu, h⟩ := exec_search_answers hv dir s
    obtain rfl : u = t := by simpa [hu] using ht
    rcases h with hcommit | ⟨evs, htr, hone⟩
    · exact ⟨_, hcommit, (if_pos rfl).symm⟩
    · have hne : evs ≠ [.memWrite Config.devAddr u.up .ok] := by rintro rfl; cases hone
      exact ⟨evs, htr, hone.trans (if_neg hne).symm⟩
  by_cases ha : ∃ hv, i = .abort hv
  · obtain ⟨hv, rfl⟩ := ha
    obtain ⟨u, hu, h⟩ := exec_abort_answers hv s
    obtain rfl : u = t := by simpa [hu] using ht
    exact h
  · have hs' : ∀ hv dir, i ≠ .search hv dir := fun hv dir h => hs ⟨hv, dir, h⟩
    have ha' : ∀ hv, i ≠ .abort hv := fun hv h => ha ⟨hv, h⟩
    obtain ⟨u, hu, evs, htr, hone⟩ := exec_answersOnce hs' ha' s
    obtain rfl : u = t := by simpa [hu] using ht
    refine ⟨evs, htr, hone.trans ?_⟩
    split
    · exact absurd rfl (hs' _ _)
    · exact absurd rfl (ha' _)
    · rfl

end Sys2Proof.Machine

/-! The events a command shows before its last one: the bus events of its rule, or the response by which an ABORT ends
a search (R220, R222, R230). -/

namespace Sys2Proof.Machine

open Sys2Proof.Claims

/-- DEINIT's power-down buffer: UP with bit 6 of byte 3 set (R80, R121). -/
def standby (up : Buffer) : Buffer := { up with b3 := up.b3 ||| 0x40#8 }

theorem setUpField_stby_one (up : Buffer) : setUpField .stby 1 up = standby up := by
  have set_bit (b m : Byte) : (b &&& ~~~m) ||| m = b ||| m := by
    ext i hi
    simp only [BitVec.getElem_or, BitVec.getElem_and, BitVec.getElem_not]
    cases b[i] <;> cases m[i] <;> rfl
  exact congrArg (fun b => { up with b3 := b }) (set_bit up.b3 0x40#8)

/-- A bit moved to the top of its byte has no bit below it, so the mask of the part changes nothing. -/
theorem searchFields_eq_searchUp (d : Nat) (up : Buffer) : searchFields d up = searchUp d up := by
  have top (x : Byte) : x <<< 7 &&& 0x80#8 = x <<< 7 := by
    apply BitVec.eq_of_getLsbD_eq
    intro i hi
    have hi' : i < 7 ∨ i = 7 := by omega
    rcases hi' with h | rfl
    · simp [h]
    · simp
  exact congrArg (fun b => { up with
    b2 := (up.b2 &&& 0x7F#8) ||| b
    b0 := (up.b0 &&& 0xBF#8) ||| 0x40#8 }) (top (BitVec.ofNat 8 d))

/-- What an ABORT that passed its checks shows before its own answer: the Cancelled response of a search that is
Committed or Polling (R230). -/
def cancelEvents (s : State) : List Event :=
  if s.fsm = .committed ∨ s.fsm = .polling then [.response 0x1800000000000000] else []

/-- What a command shows before its last event. -/
def eventsBeforeLast : Instr → State → List Event
  | .abort hv, s => if hv && s.inited then cancelEvents s else []
  | i, s => busEventsOf i s

/-- From `s` to `t` the record has grown by the events `pre` and one more. -/
def AddsThenOne (pre : List Event) (s t : State) : Prop := ∃ e, t.trace = s.trace ++ (pre ++ [e])

namespace AddsThenOne

variable {pre : List Event} {s t : State}

theorem emit {u : State} (h : u.trace = s.trace ++ pre) (e : Event) : AddsThenOne pre s (u.emit e) :=
  ⟨e, by rw [emit_trace, h, List.append_assoc]⟩

theorem emit_nil {u : State} (h : u.trace = s.trace) (e : Event) : AddsThenOne [] s (u.emit e) :=
  emit (h.trans (List.append_nil _).symm) e

theorem raise (e : Err) (s : State) : AddsThenOne [] s (raise e s) := emit_nil rfl _

theorem respondOk (d : BitVec 40) (s : State) : AddsThenOne [] s (respondOk d s) := emit_nil rfl _

/-! A refusal is the only event of the command it refuses. -/

theorem withHandle (h : AddsThenOne pre s t) (hv : Bool) :
    AddsThenOne (if hv then pre else []) s (withHandle hv s t) := by
  cases hv
  · exact raise _ s
  · exact h

theorem gate (h : AddsThenOne pre s t) (hv : Bool) :
    AddsThenOne (if hv && s.inited then pre else []) s (gate hv s t) := by
  rcases gate_cases hv s t with ⟨rfl, e⟩ | ⟨rfl, hi, e⟩ | ⟨rfl, hi, e⟩ <;> rw [e]
  · exact raise _ s
  · rw [hi]; exact raise _ s
  · rw [hi]; exact h

theorem inRange (h : AddsThenOne pre s t) (legal : Bool) :
    AddsThenOne (if legal then pre else []) s (inRange legal s t) := by
  cases legal
  · exact raise _ s
  · exact h

theorem gate_nil (h : AddsThenOne [] s t) (hv : Bool) : AddsThenOne [] s (Machine.gate hv s t) := by
  simpa using h.gate hv

theorem inRange_nil (h : AddsThenOne [] s t) (legal : Bool) : AddsThenOne [] s (Machine.inRange legal s t) := by
  simpa using h.inRange legal

theorem f2pBody (fHz : Int) (clk : Nat) (side : Bool) (s : State) : AddsThenOne [] s (f2pBody fHz clk side s) := by
  rcases f2pBody_cases fHz clk side s with ⟨-, hb⟩ | ⟨p, -, hb⟩ <;> rw [hb]
  · exact raise _ s
  · exact (respondOk _ s).inRange_nil _

theorem p2fBody (p clk : Nat) (side : Bool) (s : State) : AddsThenOne [] s (p2fBody p clk side s) := by
  rcases p2fBody_cases p clk side s with ⟨-, hb⟩ | ⟨f, -, hb⟩ <;> rw [hb]
  · exact (raise _ s).inRange_nil _
  · exact (respondOk _ s).inRange_nil _

theorem initBody (s : State) : AddsThenOne [.busAcquire (ackOf (drawAnswer s).1)] s (initBody s) := by
  have ha : (busAcquire s).2.trace = s.trace ++ [.busAcquire (ackOf (drawAnswer s).1)] := by simp [busAcquire_eq]
  rcases initBody_cases s with ⟨e, -, hb⟩ | ⟨-, hb⟩ <;> rw [hb]
  · exact emit ha _
  · exact emit ha _

end AddsThenOne

/-! Writing a buffer that has just been stored in UP, as DEINIT and SEARCH do, and DEINIT's release after it. -/

theorem memWriteUp_setUp (b : Buffer) (s : State) :
    memWriteUp (s.setUp b) = (ackOf (drawAnswer s).1,
      { (drawAnswer s).2 with
        up := b
        trace := s.trace ++ [.memWrite Config.devAddr b (ackOf (drawAnswer s).1)] }) := by
  rw [memWriteUp_eq, drawAnswer_setUp]
  simp [State.emit, State.setUp]

theorem powerDown_fst (s : State) : (powerDown s).1 = ackOf (drawAnswer s).1 := by
  rw [powerDown, memWriteUp_setUp]

/-- The release takes the environment's second answer, whatever the first was. -/
theorem busRelease_powerDown (s : State) :
    busRelease (powerDown s).2 = (ackOf (drawAnswer (drawAnswer s).2).1,
      { (drawAnswer (drawAnswer s).2).2 with
        up := standby s.up
        trace := s.trace ++ [.memWrite Config.devAddr (standby s.up)
          (ackOf (drawAnswer s).1), .busRelease (ackOf (drawAnswer (drawAnswer s).2).1)] }) := by
  rw [powerDown, memWriteUp_eq, drawAnswer_setUp, busRelease_eq, drawAnswer_emit, drawAnswer_setUp]
  simp [State.emit, State.setUp, setUpField_stby_one]

namespace AddsThenOne

theorem deinitBody (s : State) : AddsThenOne
    [.memWrite Config.devAddr (standby s.up) (ackOf (drawAnswer s).1),
      .busRelease (ackOf (drawAnswer (drawAnswer s).2).1)] s (deinitBody s) := by
  have hr := congrArg (fun r => r.2.trace) (busRelease_powerDown s)
  rcases deinitBody_cases s with ⟨e, -, hb⟩ | ⟨-, ⟨e, -, hb⟩ | ⟨-, hb⟩⟩ <;> rw [hb]
  · exact emit hr _
  · exact emit hr _
  · exact emit hr _

theorem commitBody (s : State) :
    AddsThenOne [.memWrite Config.devAddr s.up (ackOf (drawAnswer s).1)] s (commitBody s) := by
  have hw : (memWriteUp s).2.trace = s.trace ++ [.memWrite Config.devAddr s.up (ackOf (drawAnswer s).1)] := by
    simp [memWriteUp_eq]
  rcases commitBody_cases s with ⟨e, -, hb⟩ | ⟨-, hb⟩ <;> rw [hb]
  · exact emit hw _
  · exact emit hw _

theorem refreshBody (s : State) :
    AddsThenOne [.memRead Config.devAddr (drawAnswer s).1] s (refreshBody s) := by
  have hr : (memRead s).2.trace = s.trace ++ [.memRead Config.devAddr (drawAnswer s).1] := by simp [memRead_eq]
  rcases refreshBody_cases s with ⟨e, -, hb⟩ | ⟨b, -, hb⟩ <;> rw [hb]
  · exact emit hr _
  · exact emit hr _

/-- A SEARCH that starts shows only its commit. -/
theorem searchBody_of_ok {b : Buffer} (h : (drawAnswer s).1 = .ok b) (dir : Nat) :
    AddsThenOne [] s (searchBody dir s) := by
  refine ⟨.memWrite Config.devAddr (searchFields dir s.up) .ok, ?_⟩
  simp [searchBody, memWriteUp_setUp, h, ackOf]

theorem searchBody_of_fail {e : Byte} (h : (drawAnswer s).1 = .fail e) (dir : Nat) :
    AddsThenOne [.memWrite Config.devAddr (searchUp dir s.up) (.fail e)] s (searchBody dir s) := by
  refine ⟨.response (errWord (.transportFailure e)), ?_⟩
  simp [searchBody, memWriteUp_setUp, h, ackOf, raise_eq, searchFields_eq_searchUp]

theorem cancelSearch (s : State) : AddsThenOne (cancelEvents s) s (Machine.respondOk 0 (cancelSearch s)) := by
  refine emit ?_ _
  rcases cancelSearch_cases s with ⟨hf, hb⟩ | ⟨hf, hb⟩ <;> rw [hb]
  · rw [cancelEvents, if_pos hf]; rfl
  · rw [cancelEvents, if_neg (by rcases hf with hf | hf | hf <;> simp [hf]), List.append_nil]

end AddsThenOne

theorem eventsBeforeLast_setterOf (f : UpField) (hv : Bool) (v : Nat) (s : State) :
    eventsBeforeLast (setterOf hv v f) s = [] := by
  cases f <;> rfl

theorem eventsBeforeLast_getterOf (f : UpField) (hv : Bool) (s : State) :
    eventsBeforeLast (getterOf hv f) s = [] := by
  cases f <;> rfl

theorem eventsBeforeLast_downGetterOf (f : DownField) (hv : Bool) (s : State) :
    eventsBeforeLast (downGetterOf hv f) s = [] := by
  cases f <;> rfl

theorem exec_search_addsThenOne (hv : Bool) (dir : Nat) (s : State) :
    ∃ t, exec (.search hv dir) s = .next t ∧ AddsThenOne (eventsBeforeLast (.search hv dir) s) s t := by
  refine ⟨_, rfl, ?_⟩
  cases ha : (drawAnswer s).1 with
  | ok b =>
    have hpre : eventsBeforeLast (.search hv dir) s = [] := by simp [eventsBeforeLast, busEventsOf, ha]
    rw [hpre]
    exact ((AddsThenOne.searchBody_of_ok ha dir).inRange_nil _).gate_nil hv
  | fail e =>
    have hpre : eventsBeforeLast (.search hv dir) s = if hv && s.inited then
        (if legalDirection dir then [.memWrite Config.devAddr (searchUp dir s.up) (.fail e)] else []) else [] := by
      simp [eventsBeforeLast, busEventsOf, ha, legalDirection, ite_and]
    rw [hpre]
    exact ((AddsThenOne.searchBody_of_fail ha dir).inRange _).gate hv

/-- A command completes and shows its rule's bus events, or the end of the search it cancels, and then one event more:
its answer, or the commit of a SEARCH that starts. -/
theorem exec_addsThenOne (i : Instr) (s : State) :
    ∃ t, exec i s = .next t ∧ AddsThenOne (eventsBeforeLast i s) s t := by
  cases i using Instr.family_cases with
  | init hv => exact ⟨_, rfl, (AddsThenOne.initBody s).withHandle hv⟩
  | deinit hv => exact ⟨_, rfl, (AddsThenOne.deinitBody s).gate hv⟩
  | commit hv => exact ⟨_, rfl, (AddsThenOne.commitBody s).gate hv⟩
  | refresh hv => exact ⟨_, rfl, (AddsThenOne.refreshBody s).gate hv⟩
  | info hv => exact ⟨_, rfl, AddsThenOne.emit_nil rfl _⟩
  | f2p hv fHz => exact ⟨_, rfl, (AddsThenOne.f2pBody fHz _ _ s).gate_nil hv⟩
  | f2px hv fHz clk side => exact ⟨_, rfl, AddsThenOne.f2pBody fHz clk side s⟩
  | p2f hv pll => exact ⟨_, rfl, (AddsThenOne.p2fBody pll _ _ s).gate_nil hv⟩
  | p2fx hv pll clk side => exact ⟨_, rfl, AddsThenOne.p2fBody pll clk side s⟩
  | search hv dir => exact exec_search_addsThenOne hv dir s
  | abort hv => exact ⟨_, rfl, (AddsThenOne.cancelSearch s).gate hv⟩
  | setter f hv v =>
    have hb : AddsThenOne [] s (setBody f v s) := AddsThenOne.emit_nil rfl _
    rw [eventsBeforeLast_setterOf]
    exact ⟨_, exec_setterOf f hv v s, (hb.inRange_nil _).gate_nil hv⟩
  | getter f hv =>
    rw [eventsBeforeLast_getterOf]
    exact ⟨_, exec_getterOf f hv s, (AddsThenOne.respondOk _ s).gate_nil hv⟩
  | downGetter f hv =>
    rw [eventsBeforeLast_downGetterOf]
    exact ⟨_, exec_downGetterOf f hv s, (AddsThenOne.respondOk _ s).gate_nil hv⟩

/-- A command's own bus events are no responses. -/
theorem isResponse_eq_false_of_mem_busEventsOf {i : Instr} {s : State} {e : Event} (he : e ∈ busEventsOf i s) :
    isResponse e = false := by
  have of_guarded {x : Event} {l : List Event} {c : Bool} (hl : ∀ x ∈ l, isResponse x = false)
      (hx : x ∈ if c then l else []) : isResponse x = false := by
    cases c
    · cases hx
    · exact hl x hx
  unfold busEventsOf at he
  split at he
  case h_1 | h_2 | h_3 | h_4 => exact of_guarded (by simp [isResponse]) he
  case h_5 =>
    split at he
    · exact of_guarded (by simp [isResponse]) he
    · cases he
  case h_6 => cases he

/-- The one response a command shows before its last event is the Cancelled one (R230). -/
theorem eq_cancelled_of_mem_eventsBeforeLast {i : Instr} {s : State} {e : Event} (he : e ∈ eventsBeforeLast i s)
    (hr : isResponse e = true) : e = .response 0x1800000000000000 := by
  unfold eventsBeforeLast at he
  split at he
  · rw [cancelEvents] at he
    split_ifs at he <;> simp_all
  · exact absurd (hr.symm.trans (isResponse_eq_false_of_mem_busEventsOf he)) (by decide)

/-- A command dropped inside by the reset has shown some of the events before its last (R290). -/
theorem dropCommand_trace {pre : List Event} {s t : State} (h : AddsThenOne pre s t) (done : Nat) :
    (dropCommand done s t).trace = s.trace ++ pre.take done ++ [.resetInput] := by
  obtain ⟨e, ht⟩ := h
  rw [dropCommand_eq, eventsBetween_of_append ht, List.dropLast_concat]
  rfl

/-! The moves of the lifecycle (R124): by INIT, by DEINIT, and by the reset input. -/

/-- From `s` to `t` INITED is as it was or has moved as R124 lists. -/
structure MovesAsListed (s t : State) : Prop where
  becomesSet : s.inited = false → t.inited = true → t.trace = s.trace ++ [.busAcquire .ok, .response 0]
  becomesClear : s.inited = true → t.inited = false →
    (∃ b, t.trace = s.trace ++ [.memWrite Config.devAddr b .ok, .busRelease .ok, .response 0]) ∨
      ∃ evs, t.trace = s.trace ++ evs ++ [.resetInput] ∧
        ∀ e ∈ evs, isResponse e = true → e = .response 0x1800000000000000

namespace MovesAsListed

variable {s t : State}

theorem of_inited_eq (h : t.inited = s.inited) : MovesAsListed s t where
  becomesSet h0 h1 := absurd (h0.symm.trans (h.symm.trans h1)) (by decide)
  becomesClear h1 h0 := absurd (h0.symm.trans (h.trans h1)) (by decide)

/-- It looks at neither the words, nor the schedule, nor the count of free values the step starts from. -/
theorem of_ports {cmds : List Word} {sched : List Turn} {drawn : Nat}
    (h : MovesAsListed { s with cmds := cmds, sched := sched, drawn := drawn } t) : MovesAsListed s t :=
  ⟨h.becomesSet, h.becomesClear⟩

theorem raise (e : Err) (s : State) : MovesAsListed s (raise e s) := of_inited_eq rfl

theorem withHandle (h : MovesAsListed s t) (hv : Bool) : MovesAsListed s (withHandle hv s t) := by
  cases hv
  · exact raise _ s
  · exact h

theorem gate (h : MovesAsListed s t) (hv : Bool) : MovesAsListed s (gate hv s t) := by
  rcases gate_cases hv s t with ⟨-, e⟩ | ⟨-, -, e⟩ | ⟨-, -, e⟩ <;> rw [e]
  · exact raise _ s
  · exact raise _ s
  · exact h

theorem initBody (s : State) : MovesAsListed s (initBody s) := by
  rcases initBody_cases s with ⟨e, -, hb⟩ | ⟨ha, hb⟩
  · exact of_inited_eq (by simp [hb, raise_eq, busAcquire_eq])
  · have ha : ackOf (drawAnswer s).1 = .ok := ha
    have ht : (Machine.initBody s).trace = s.trace ++ [.busAcquire .ok, .response 0] := by
      simp [hb, respondOk_eq, busAcquire_eq, ha]
    have hi : (Machine.initBody s).inited = true := by rw [hb]; rfl
    exact ⟨fun _ _ => ht, fun _ h0 => absurd (h0.symm.trans hi) (by decide)⟩

/-- A DEINIT that fails keeps INITED (R122). -/
theorem deinitBody (s : State) : MovesAsListed s (deinitBody s) := by
  have kept : (busRelease (powerDown s).2).2.inited = s.inited := by simp [busRelease_powerDown]
  rcases deinitBody_cases s with ⟨e, -, hb⟩ | ⟨hw, ⟨e, -, hb⟩ | ⟨hr, hb⟩⟩
  · exact of_inited_eq (by rw [hb]; exact kept)
  · exact of_inited_eq (by rw [hb]; exact kept)
  · simp only [powerDown_fst, busRelease_powerDown] at hw hr
    have ht : (Machine.deinitBody s).trace = s.trace ++
        [.memWrite Config.devAddr (standby s.up) .ok, .busRelease .ok, .response 0] := by
      simp [hb, respondOk_eq, busRelease_powerDown, hw, hr]
    have hi : (Machine.deinitBody s).inited = false := by rw [hb]; rfl
    exact ⟨fun _ h1 => absurd (hi.symm.trans h1) (by decide), fun _ _ => .inl ⟨_, ht⟩⟩

/-- The reset input after events of a command that R290 lets it have shown. -/
theorem of_reset {evs : List Event} (hi : t.inited = false) (ht : t.trace = s.trace ++ evs ++ [.resetInput])
    (hevs : ∀ e ∈ evs, isResponse e = true → e = .response 0x1800000000000000) : MovesAsListed s t :=
  ⟨fun _ h1 => absurd (hi.symm.trans h1) (by decide), fun _ _ => .inr ⟨evs, ht, hevs⟩⟩

theorem hardwareReset (s : State) : MovesAsListed s (hardwareReset s) :=
  of_reset (evs := []) rfl (by rw [List.append_nil]; rfl) fun _ he => nomatch he

end MovesAsListed

/-- R20 names two commands that write INITED. -/
theorem eq_of_mayWriteInited {i : Instr} (h : mayWriteInited i = true) :
    (∃ hv, i = .init hv) ∨ ∃ hv, i = .deinit hv := by
  match i, h with
  | .init hv, _ => exact .inl ⟨hv, rfl⟩
  | .deinit hv, _ => exact .inr ⟨hv, rfl⟩

theorem exec_movesAsListed {i : Instr} {s t : State} (h : exec i s = .next t) : MovesAsListed s t := by
  obtain ⟨u, hu, hw⟩ := exec_writesAsNamed i s
  obtain rfl : u = t := by simpa [hu] using h
  by_cases hi : u.inited = s.inited
  · exact .of_inited_eq hi
  · rcases eq_of_mayWriteInited (hw.inited hi) with ⟨hv, rfl⟩ | ⟨hv, rfl⟩ <;> rw [← Host.Outcome.next.inj h]
    · exact (MovesAsListed.initBody s).withHandle hv
    · exact (MovesAsListed.deinitBody s).gate hv

/-- The search controller never writes INITED (R20). -/
theorem controllerStep_inited (s : State) : (controllerStep s).inited = s.inited := by
  cases hs : s.fsm with
  | idle => rw [controllerStep_idle hs]
  | committed => rw [controllerStep_committed hs]; rfl
  | polling =>
    rw [controllerStep_polling hs]
    rcases poll_cases s with ⟨e, -, hp⟩ | ⟨b, -, ⟨-, hp⟩ | ⟨-, -, hp⟩ | ⟨-, -, hp⟩⟩ <;> rw [hp]
    all_goals simp [raise_eq, sleepPoll, memRead_eq]
  | found => rw [controllerStep_found hs]; rfl
  | bandLimit => rw [controllerStep_bandLimit hs]; rfl

/-- What an accepted word shows before its last event is no response but the Cancelled one; a malformed word shows
only its answer. -/
theorem execWord_addsThenOne (cw : Word) (s : State) : ∃ t pre, execWord cw s = .next t ∧ AddsThenOne pre s t ∧
    ∀ e ∈ pre, isResponse e = true → e = .response 0x1800000000000000 := by
  cases hd : decode cw with
  | error e => exact ⟨_, [], execWord_error hd s, AddsThenOne.raise _ s, fun _ he => nomatch he⟩
  | ok i =>
    obtain ⟨t, ht, h⟩ := exec_addsThenOne i s
    exact ⟨t, _, (execWord_ok hd s).trans ht, h, fun _ => eq_cancelled_of_mem_eventsBeforeLast⟩

theorem resetDuringStep_movesAsListed {done : Nat} {s t : State} (h : resetDuringStep done s = .next t) :
    MovesAsListed s t := by
  rcases resetDuringStep_cases done s with hr | ⟨cw, rest, -, -, hw⟩
  · rw [← Host.Outcome.next.inj (hr.symm.trans h)]
    exact .hardwareReset s
  · obtain ⟨u, pre, hu, hadds, hpre⟩ := execWord_addsThenOne cw { s with cmds := rest }
    rcases hw with ⟨v, hv, hr⟩ | ⟨r, hv, -⟩ | ⟨r, hv, -⟩
    · obtain rfl : u = v := Host.Outcome.next.inj (hu.symm.trans hv)
      rw [← Host.Outcome.next.inj (hr.symm.trans h)]
      exact .of_reset rfl (dropCommand_trace hadds done) fun e he => hpre e (List.mem_of_mem_take he)
    · cases r
    · exact absurd (hu.symm.trans hv) (by simp)

/-- Settles O23, by the agent whose turn it is: of the commands only INIT and DEINIT write INITED, the controller never
does, and a reset shows what the dropped command had shown before its last event. -/
theorem lifecycleMovesOnlyByInitDeinitReset : Obligations.LifecycleMovesOnlyByInitDeinitReset := by
  unfold Obligations.LifecycleMovesOnlyByInitDeinitReset
  intro s t ht
  suffices h : MovesAsListed s t from ⟨h.becomesSet, h.becomesClear⟩
  obtain ⟨r, hr, hstep⟩ := step_cases s
  rw [turn_frame] at hr
  subst hr
  rcases hstep with hs | ⟨cw, rest, -, -, ⟨e, -, hs⟩ | ⟨i, -, hs⟩⟩ | hs | hs | ⟨done, hs⟩ <;> rw [hs] at ht
  · rw [← Host.Outcome.next.inj ht]; exact .of_inited_eq rfl
  · rw [← Host.Outcome.next.inj ht]; exact .of_inited_eq rfl
  · exact .of_ports (exec_movesAsListed ht)
  · rw [← Host.Outcome.next.inj ht]; exact .of_inited_eq (controllerStep_inited _)
  · rw [← Host.Outcome.next.inj ht]; exact .of_ports (.hardwareReset _)
  · exact .of_ports (resetDuringStep_movesAsListed ht)

end Sys2Proof.Machine

/-! The words of a command without an operand: R95's zeros, and what R102 says of the other words of its op. -/

namespace Sys2Proof

open Sys2Proof.Machine Sys2Proof.Claims

theorem refused_of_decode_error {cw : Word} {e : Malformed} (h : decode cw = .error e) : Refused cw :=
  ⟨⟨e, h⟩, fun s => by rw [execWord_error h, raise_eq, errWord_illegalCommand]⟩

/-- A word of a plain op decodes to its command exactly when bits 55 to 0 are zero. -/
theorem decode_noArgForm {cw : Word} {i j : Instr} (h : decodeOp (unpackCw cw) = noArgForm (unpackCw cw) i) :
    decode cw = .ok j ↔ (midOf cw = 0 ∧ argOf cw = 0) ∧ i = j := by
  have hmid : midOf cw = 0 ↔ _ := middle_zero_iff cw
  have harg : argOf cw = (unpackCw cw).arg := rfl
  rw [decode, decodeFields_ok, h, noArgForm_ok, hmid, harg]
  tauto

/-- An op that R101's map gives the form without an operand decodes as that form does. -/
theorem decodesPlain_of_noArgForm {op : BitVec 7} {mk : Bool → Instr}
    (h : ∀ f : CwFields, decodeOp { f with op := op } = noArgForm { f with op := op } (mk f.hv)) :
    DecodesPlain op mk := by
  intro cw hop
  have hform : decodeOp (unpackCw cw) = noArgForm (unpackCw cw) (mk (hvOf cw)) := by
    subst hop
    exact h (unpackCw cw)
  split_ifs with hz
  · exact (decode_noArgForm hform).2 ⟨hz, rfl⟩
  · cases hd : decode cw with
    | error e => exact refused_of_decode_error hd
    | ok j => exact absurd ((decode_noArgForm hform).1 hd).1 hz

end Sys2Proof

/-! The checks and the answer of a failed transaction, written out (R98, R252, R254, R255). -/

namespace Sys2Proof.Machine

open Sys2Proof.Claims

theorem withHandle_eq (hv : Bool) (s b : State) :
    withHandle hv s b = if hv = false then answered 0x2000000000000000 s else b := by
  cases hv <;> rfl

theorem gate_eq_gated (hv : Bool) (s b : State) : gate hv s b = gated hv s b := by
  rcases gate_cases hv s b with ⟨rfl, e⟩ | ⟨rfl, hi, e⟩ | ⟨rfl, hi, e⟩ <;> rw [e]
  · rfl
  · rw [gated, hi]; rfl
  · rw [gated, hi]; rfl

/-- The transport's code lies in bits 55 to 48, below the status. -/
theorem errWord_transportFailure (e : Byte) : errWord (.transportFailure e) = failWord e := by
  have hstatus : 0x6000000000000000#64 = (3#3).setWidth 64 <<< 61 := rfl
  apply BitVec.eq_of_getLsbD_eq
  intro i hi
  have habove : 56 ≤ i → e.getLsbD (i - 48) = false := fun h => BitVec.getLsbD_of_ge e _ (by omega)
  rw [errWord, getLsbD_respWord, failWord, hstatus, BitVec.getLsbD_or, BitVec.getLsbD_shiftLeft,
    BitVec.getLsbD_shiftLeft, BitVec.getLsbD_setWidth, BitVec.getLsbD_setWidth]
  simp only [Err.code, Err.ioerr]
  split_ifs <;> grind

/-! INIT and DEINIT after their checks, by the environment's answers (R120, R121, R122). -/

theorem initBody_of_fail {s : State} {e : Byte} (h : (drawAnswer s).1 = .fail e) :
    initBody s =
      { (drawAnswer s).2 with trace := s.trace ++ [.busAcquire (.fail e), .response (failWord e)] } := by
  simp [initBody, busAcquire_eq, h, ackOf, raise_eq, errWord_transportFailure, State.emit]

theorem initBody_of_ok {s : State} {b : Buffer} (h : (drawAnswer s).1 = .ok b) :
    initBody s =
      { (drawAnswer s).2 with
        up := ⟨0, 0, 0, 0, 0⟩
        down := ⟨0, 0, 0, 0, 0⟩
        inited := true
        trace := s.trace ++ [.busAcquire .ok, .response 0] } := by
  simp [initBody, busAcquire_eq, h, ackOf, respondOk_eq, State.emit, State.setUp, State.setDown, State.setInited,
    Buffer.zero]

theorem deinitBody_of_write_fail {s : State} {e : Byte} (h : (drawAnswer s).1 = .fail e) :
    deinitBody s =
      { (drawAnswer (drawAnswer s).2).2 with
        up := standby s.up
        trace := s.trace ++ [.memWrite Config.devAddr (standby s.up) (.fail e),
          .busRelease (ackOf (drawAnswer (drawAnswer s).2).1), .response (failWord e)] } := by
  simp [deinitBody, powerDown_fst, busRelease_powerDown, h, ackOf, raise_eq, errWord_transportFailure]

theorem deinitBody_of_release_fail {s : State} {b : Buffer} {e : Byte} (hw : (drawAnswer s).1 = .ok b)
    (hr : (drawAnswer (drawAnswer s).2).1 = .fail e) :
    deinitBody s =
      { (drawAnswer (drawAnswer s).2).2 with
        up := standby s.up
        trace := s.trace ++ [.memWrite Config.devAddr (standby s.up) .ok,
          .busRelease (.fail e), .response (failWord e)] } := by
  simp [deinitBody, powerDown_fst, busRelease_powerDown, hw, hr, ackOf, raise_eq, errWord_transportFailure]

/-- Both buffers are forgotten, and the rest is as the two transactions left it. -/
theorem deinitBody_of_ok {s : State} {b1 b2 : Buffer} (hw : (drawAnswer s).1 = .ok b1)
    (hr : (drawAnswer (drawAnswer s).2).1 = .ok b2) :
    deinitBody s = forgetBuffers
      { (drawAnswer (drawAnswer s).2).2 with
        inited := false
        trace := s.trace ++ [.memWrite Config.devAddr (standby s.up) .ok,
          .busRelease .ok, .response 0] } := by
  simp [deinitBody, powerDown_fst, busRelease_powerDown, hw, hr, ackOf, respondOk_eq, forgetBuffers, State.setInited]

/-- Settles O19: the check of the handle, then INIT's body by the answer to its acquire. -/
theorem initAcquiresAndZeroes : Obligations.InitAcquiresAndZeroes := by
  unfold Obligations.InitAcquiresAndZeroes
  refine ⟨decodesPlain_of_noArgForm fun _ => rfl, fun hv s => ?_⟩
  have hexec : exec (.init hv) s = .next (withHandle hv s (initBody s)) := rfl
  rw [hexec, withHandle_eq]
  cases ha : (drawAnswer s).1 with
  | fail e => rw [initBody_of_fail ha]
  | ok b => rw [initBody_of_ok ha]

theorem exec_deinit (hv : Bool) (s : State) : exec (.deinit hv) s = .next (gated hv s (deinitBody s)) := by
  rw [← gate_eq_gated]
  rfl

theorem gated_of_inited {s : State} (h : s.inited = true) (b : State) : gated true s b = b := by
  simp [gated, h]

/-- Settles O20: past the checks both transactions succeed, and INITED is cleared. -/
theorem deinitPowersDownAndReleases : Obligations.DeinitPowersDownAndReleases := by
  unfold Obligations.DeinitPowersDownAndReleases
  refine ⟨decodesPlain_of_noArgForm fun _ => rfl, fun s => ?_, fun s hi => ?_, fun s b1 b2 hi hw hr => ?_⟩
  · rw [exec_deinit, gated, if_pos rfl]
  · rw [exec_deinit, gated, if_neg (by decide), if_pos hi]
  · rw [exec_deinit, gated_of_inited hi, deinitBody_of_ok hw hr]
    exact ⟨_, rfl, rfl, by simp, by simp, by simp, rfl, rfl⟩

/-- Settles O21, by which of the two transactions fails first. -/
theorem deinitFailureKeepsHandle : Obligations.DeinitFailureKeepsHandle := by
  unfold Obligations.DeinitFailureKeepsHandle
  intro s hi
  refine ⟨fun e hw => ?_, fun b e2 hw hr => ?_⟩
  · rw [exec_deinit, gated_of_inited hi, deinitBody_of_write_fail hw]
    rfl
  · rw [exec_deinit, gated_of_inited hi, deinitBody_of_release_fail hw hr]
    rfl

/-- Settles O22: INFO's body looks at nothing and is one event. -/
theorem infoAnswersDescriptor : Obligations.InfoAnswersDescriptor := by
  unfold Obligations.InfoAnswersDescriptor
  exact ⟨decodesPlain_of_noArgForm fun _ => rfl, fun _ _ => rfl⟩

end Sys2Proof.Machine

/-! The words of a command whose one operand is its argument (R95, R96, R102). -/

namespace Sys2Proof

open Sys2Proof.Machine Sys2Proof.Claims

/-- A word of an op with an argument decodes to its command exactly when bits 55 to 40 are zero. -/
theorem decode_plainForm {cw : Word} {i j : Instr} (h : decodeOp (unpackCw cw) = plainForm (unpackCw cw) i) :
    decode cw = .ok j ↔ midOf cw = 0 ∧ i = j := by
  have hmid : midOf cw = 0 ↔ _ := middle_zero_iff cw
  rw [decode, decodeFields_ok, h, plainForm_ok, hmid]
  tauto

/-- An op that R101's map gives the form with an argument decodes as that form does. -/
theorem decodesWithArg_of_plainForm {op : BitVec 7} {mk : Bool → Nat → Instr}
    (h : ∀ f : CwFields, decodeOp { f with op := op } = plainForm { f with op := op } (mk f.hv (argNat f))) :
    DecodesWithArg op mk := by
  intro cw hop
  have hform : decodeOp (unpackCw cw) = plainForm (unpackCw cw) (mk (hvOf cw) (argOf cw).toNat) := by
    subst hop
    exact h (unpackCw cw)
  split_ifs with hz
  · exact (decode_plainForm hform).2 ⟨hz, rfl⟩
  · cases hd : decode cw with
    | error e => exact refused_of_decode_error hd
    | ok j => exact absurd ((decode_plainForm hform).1 hd).1 hz

/-! A value that fits its part is written by clearing the part and ORing in the shifted value, as R131 to R149 write it:
the mask R81 puts over the shifted value changes nothing. -/

/-- `buf[i] <- (buf[i] & ~m) | (v << s)`. -/
def storeLoc (l : Loc) (v : Nat) (b : Buffer) : Buffer :=
  b.set l.byte ((b.get l.byte &&& ~~~l.mask) ||| (BitVec.ofNat 8 v <<< l.shift))

theorem shifted_and_mask {l : Loc} {w v : Nat} (h : l.spans w = true) (hv : v < 2 ^ w) :
    (BitVec.ofNat 8 v <<< l.shift) &&& l.mask = BitVec.ofNat 8 v <<< l.shift := by
  obtain ⟨-, hm⟩ := Loc.spans_iff.1 h
  apply BitVec.eq_of_getLsbD_eq
  intro i hi
  simp only [BitVec.getLsbD_and, BitVec.getLsbD_shiftLeft, BitVec.getLsbD_ofNat, hm i hi]
  by_cases hin : l.shift ≤ i ∧ i < l.shift + w
  · simp [hin]
  · rcases not_and_or.1 hin with hlo | hhi
    · simp [Nat.lt_of_not_le hlo]
    · have hbit : v.testBit (i - l.shift) = false :=
        Nat.testBit_lt_two_pow (lt_of_lt_of_le hv (Nat.pow_le_pow_right (by decide) (by omega)))
      simp [hbit]

theorem writeLoc_eq_storeLoc {l : Loc} {w v : Nat} (h : l.spans w = true) (hv : v < 2 ^ w) (b : Buffer) :
    writeLoc l v b = storeLoc l v b := by
  rw [writeLoc, shifted_and_mask h hv, storeLoc]

theorem shiftRight_lt_two_pow {v w k : Nat} (hk : k ≤ w) (hv : v < 2 ^ w) : v >>> k < 2 ^ (w - k) := by
  rw [Nat.shiftRight_eq_div_pow, Nat.div_lt_iff_lt_mul (by positivity), ← Nat.pow_add, Nat.sub_add_cancel hk]
  exact hv

/-- The parts of a field stored, the high one first. -/
def storeLayout (y : Layout) (v : Nat) (b : Buffer) : Buffer :=
  match y with
  | .one l => storeLoc l v b
  | .two hi lo k => storeLoc lo (v % 2 ^ k) (storeLoc hi (v >>> k) b)

theorem writeLayout_eq_storeLayout {y : Layout} {w v : Nat} (h : y.holds w = true) (hv : v < 2 ^ w) (b : Buffer) :
    writeLayout y v b = storeLayout y v b := by
  cases y with
  | one l => exact writeLoc_eq_storeLoc h hv b
  | two hi lo k =>
    simp only [Layout.holds, Bool.and_eq_true, decide_eq_true_eq] at h
    obtain ⟨⟨⟨hk, hhi⟩, hlo⟩, -⟩ := h
    rw [writeLayout, writeLoc_eq_storeLoc hhi (shiftRight_lt_two_pow hk hv),
      writeLoc_eq_storeLoc hlo (Nat.mod_lt _ (by positivity)), storeLayout]

end Sys2Proof

/-! The setters (R130 to R149): one rule for the nineteen of them, read off the field's layout. -/

namespace Sys2Proof.Machine

open Sys2Proof.Claims

theorem setUpField_of_legalSet {f : UpField} {v : Nat} (h : legalSet f v = true) (b : Buffer) :
    setUpField f v b = storeLayout (upLayout f) v b :=
  writeLayout_eq_storeLayout (upLayout_holds f) (lt_of_legalSet h) b

theorem inRange_eq (legal : Bool) (s b : State) :
    inRange legal s b = if legal then b else answered 0x8000000000000000 s := by
  cases legal <;> rfl

theorem setBody_of_legalSet {f : UpField} {v : Nat} (h : legalSet f v = true) (s : State) :
    setBody f v s = answered 0 { s with up := storeLayout (upLayout f) v s.up } := by
  rw [← setUpField_of_legalSet h]
  rfl

/-- A setter of R101's map stores its field's parts when the value is legal, and answers OutOfRange otherwise. -/
theorem setterRule_storeLayout (f : UpField) {op : BitVec 7}
    (hop : ∀ g : CwFields,
      decodeOp { g with op := op } = plainForm { g with op := op } (setterOf g.hv (argNat g) f)) :
    SetterRule op (fun hv v => setterOf hv v f) (legalSet f) (storeLayout (upLayout f)) := by
  refine ⟨decodesWithArg_of_plainForm hop, fun hv v s => ?_⟩
  rw [exec_setterOf, setter, gate_eq_gated, inRange_eq]
  split_ifs with hl
  · rw [setBody_of_legalSet hl]
  · rfl

/-- What a setter's rule writes matters for the legal values only. -/
theorem setterRule_congr {op : BitVec 7} {mk : Bool → Nat → Instr} {legal : Nat → Bool}
    {write write' : Nat → Buffer → Buffer} (h : SetterRule op mk legal write)
    (hw : ∀ v b, legal v = true → write v b = write' v b) : SetterRule op mk legal write' := by
  obtain ⟨hwords, hexec⟩ := h
  refine ⟨hwords, fun hv v s => ?_⟩
  rw [hexec]
  split_ifs with hl
  · rw [hw v s.up hl]
  · rfl

/-- Settles O8: each field is one part of its byte. -/
theorem settersOfBytes0And4 : Obligations.SettersOfBytes0And4 := by
  unfold Obligations.SettersOfBytes0And4
  exact ⟨setterRule_storeLayout .mute fun _ => rfl, setterRule_storeLayout .smode fun _ => rfl,
    setterRule_storeLayout .deemph fun _ => rfl⟩

/-- The high part is a six-bit value, which its mask keeps; the low part is the whole of byte 1, so nothing of the byte
is kept. -/
theorem storeLayout_pll {v : Nat} (hv : v ≤ 0x3FFF) (b : Buffer) : storeLayout (upLayout .pll) v b =
    { b with b0 := (b.b0 &&& 0xC0#8) ||| (BitVec.ofNat 8 (v >>> 8) &&& 0x3F#8), b1 := BitVec.ofNat 8 v } := by
  have hhi : v >>> 8 < 2 ^ 6 := shiftRight_lt_two_pow (w := 14) (by decide) (by omega)
  have hmask : BitVec.ofNat 8 (v >>> 8) <<< 0 &&& 0x3F#8 = BitVec.ofNat 8 (v >>> 8) <<< 0 :=
    shifted_and_mask (l := ⟨0, 0x3F, 0⟩) (by decide) hhi
  have hb0 : BitVec.ofNat 8 (v >>> 8) &&& 0x3F#8 = BitVec.ofNat 8 (v >>> 8) <<< 0 := by
    rwa [BitVec.shiftLeft_zero] at hmask ⊢
  have hlow : BitVec.ofNat 8 (v % 2 ^ 8) = BitVec.ofNat 8 v := BitVec.eq_of_toNat_eq (Nat.mod_mod v (2 ^ 8))
  have hb1 : (b.b1 &&& 0x00#8) ||| BitVec.ofNat 8 (v % 2 ^ 8) <<< 0 = BitVec.ofNat 8 v := by
    rw [hlow, BitVec.shiftLeft_zero, BitVec.and_zero, BitVec.zero_or]
  rw [hb0, ← hb1]
  rfl

/-- Settles O9: the two parts of PLL, as the rule writes them. -/
theorem setPllWritesFourteenBits : Obligations.SetPllWritesFourteenBits := by
  unfold Obligations.SetPllWritesFourteenBits
  exact setterRule_congr (setterRule_storeLayout .pll fun _ => rfl) fun v b hv =>
    storeLayout_pll (of_decide_eq_true hv) b

/-- Settles O10: each field is one part of byte 2. -/
theorem settersOfByte2 : Obligations.SettersOfByte2 := by
  unfold Obligations.SettersOfByte2
  exact ⟨setterRule_storeLayout .sdir fun _ => rfl, setterRule_storeLayout .inj fun _ => rfl,
    setterRule_storeLayout .mono fun _ => rfl, setterRule_storeLayout .rmute fun _ => rfl,
    setterRule_storeLayout .lmute fun _ => rfl, setterRule_storeLayout .port1 fun _ => rfl⟩

/-- Settles O11: two bits of byte 2, and a legal set without 0. -/
theorem setSslRefusesZero : Obligations.SetSslRefusesZero := by
  unfold Obligations.SetSslRefusesZero
  exact setterRule_storeLayout .ssl fun _ => rfl

/-- Settles O12: each field is one part of byte 3. -/
theorem settersOfByte3 : Obligations.SettersOfByte3 := by
  unfold Obligations.SettersOfByte3
  exact ⟨setterRule_storeLayout .port2 fun _ => rfl, setterRule_storeLayout .stby fun _ => rfl,
    setterRule_storeLayout .band fun _ => rfl, setterRule_storeLayout .softmute fun _ => rfl,
    setterRule_storeLayout .hcc fun _ => rfl, setterRule_storeLayout .snc fun _ => rfl,
    setterRule_storeLayout .p1ind fun _ => rfl⟩

/-- The high bit of a value of two bits is the value halved, and the two parts lie in different bytes. -/
theorem storeLayout_clk {v : Nat} (hv : v ≤ 3) (b : Buffer) : storeLayout (upLayout .clk) v b =
    { b with
      b3 := (b.b3 &&& 0xEF#8) ||| (BitVec.ofNat 8 (v % 2) <<< 4)
      b4 := (b.b4 &&& 0x7F#8) ||| (BitVec.ofNat 8 (v / 2 % 2) <<< 7) } := by
  have hhigh : v / 2 % 2 = v >>> 1 := by
    rw [Nat.shiftRight_eq_div_pow]
    omega
  rw [hhigh]
  rfl

/-- Settles O13: the two parts of CLK, as the rule writes them. -/
theorem setClkWritesTwoBytes : Obligations.SetClkWritesTwoBytes := by
  unfold Obligations.SetClkWritesTwoBytes
  exact setterRule_congr (setterRule_storeLayout .clk fun _ => rfl) fun v b hv =>
    storeLayout_clk (of_decide_eq_true hv) b

end Sys2Proof.Machine

/-! The getters (R160 to R186): one rule for the nineteen of UP and the six of DOWN, read off the field's layout. -/

namespace Sys2Proof.Machine

open Sys2Proof.Claims

/-- A field's parts as a word, each the masked byte shifted down, the high part above the low one. -/
def layoutWord (y : Layout) (b : Buffer) : Word :=
  match y with
  | .one l => bits (b.get l.byte) l.mask l.shift
  | .two hi lo w => (bits (b.get hi.byte) hi.mask hi.shift <<< w) ||| bits (b.get lo.byte) lo.mask lo.shift

theorem ofNat_readLoc_eq_bits (l : Loc) (b : Buffer) :
    BitVec.ofNat 64 (readLoc l b) = bits (b.get l.byte) l.mask l.shift :=
  BitVec.ofNat_toNat ..

theorem ofNat_shiftLeft (n w : Nat) : BitVec.ofNat 64 (n <<< w) = BitVec.ofNat 64 n <<< w := by
  apply BitVec.eq_of_toNat_eq
  simp [Nat.shiftLeft_eq]

theorem ofNat_readLayout (y : Layout) (b : Buffer) : BitVec.ofNat 64 (readLayout y b) = layoutWord y b := by
  cases y with
  | one l => exact ofNat_readLoc_eq_bits l b
  | two hi lo w =>
    rw [readLayout, BitVec.ofNat_or, ofNat_shiftLeft, ofNat_readLoc_eq_bits, ofNat_readLoc_eq_bits, layoutWord]

/-- A field's value fits the data part of a response word (R98). -/
theorem respondOk_readLayout {y : Layout} {b : Buffer} (h : readLayout y b < 2 ^ 16) (s : State) :
    respondOk (dataNat (readLayout y b)) s = answered (layoutWord y b) s := by
  have hdata : (dataNat (readLayout y b)).setWidth 64 = layoutWord y b := by
    rw [dataNat, BitVec.setWidth_ofNat_of_le_of_lt (by decide) (lt_trans h (by decide)), ofNat_readLayout]
  rw [respondOk_eq, hdata, answered]

/-- A getter of R101's map answers the parts of its field in UP. -/
theorem getterRule_layoutWord (f : UpField) {op : BitVec 7}
    (hop : ∀ g : CwFields, decodeOp { g with op := op } = noArgForm { g with op := op } (getterOf g.hv f)) :
    GetterRule op (fun hv => getterOf hv f) (fun s => layoutWord (upLayout f) s.up) := by
  refine ⟨decodesPlain_of_noArgForm hop, fun hv s => ?_⟩
  rw [exec_getterOf, getter, gate_eq_gated, upField, respondOk_readLayout (upField_lt f s.up)]

/-- A getter of R101's map answers the parts of its field in DOWN. -/
theorem downGetterRule_layoutWord (f : DownField) {op : BitVec 7}
    (hop : ∀ g : CwFields, decodeOp { g with op := op } = noArgForm { g with op := op } (downGetterOf g.hv f)) :
    GetterRule op (fun hv => downGetterOf hv f) (fun s => layoutWord (downLayout f) s.down) := by
  refine ⟨decodesPlain_of_noArgForm hop, fun hv s => ?_⟩
  rw [exec_downGetterOf, downGetter, gate_eq_gated, downField, respondOk_readLayout (downField_lt f s.down)]

theorem bits_zero_shift (b m : Byte) : bits b m 0 = (b &&& m).setWidth 64 := by
  rw [bits, BitVec.ushiftRight_zero]

/-- PLL and SPLL (R82, R87): the low part is the whole of byte 1. -/
theorem fourteenBits_eq (b0 b1 : Byte) :
    (bits b0 0x3F#8 0 <<< 8) ||| bits b1 0xFF#8 0 = ((b0 &&& 0x3F#8).setWidth 64 <<< 8) ||| b1.setWidth 64 := by
  have hwhole : b1 &&& 0xFF#8 = b1 := BitVec.and_allOnes
  rw [bits_zero_shift, bits_zero_shift, hwhole]

/-- Settles O15: MUTE and SMODE are one part of byte 0, PLL is two. -/
theorem gettersOfBytes0And1 : Obligations.GettersOfBytes0And1 := by
  unfold Obligations.GettersOfBytes0And1
  simp only [← fourteenBits_eq]
  exact ⟨getterRule_layoutWord .mute fun _ => rfl, getterRule_layoutWord .smode fun _ => rfl,
    getterRule_layoutWord .pll fun _ => rfl⟩

/-- Settles O16: each field is one part of byte 2. -/
theorem gettersOfByte2 : Obligations.GettersOfByte2 := by
  unfold Obligations.GettersOfByte2
  exact ⟨getterRule_layoutWord .sdir fun _ => rfl, getterRule_layoutWord .ssl fun _ => rfl,
    getterRule_layoutWord .inj fun _ => rfl, getterRule_layoutWord .mono fun _ => rfl,
    getterRule_layoutWord .rmute fun _ => rfl, getterRule_layoutWord .lmute fun _ => rfl,
    getterRule_layoutWord .port1 fun _ => rfl⟩

/-- Settles O17: CLK is a part of byte 4 above one of byte 3, and each other field is one part of its byte. -/
theorem gettersOfBytes3And4 : Obligations.GettersOfBytes3And4 := by
  unfold Obligations.GettersOfBytes3And4
  exact ⟨getterRule_layoutWord .port2 fun _ => rfl, getterRule_layoutWord .stby fun _ => rfl,
    getterRule_layoutWord .band fun _ => rfl, getterRule_layoutWord .clk fun _ => rfl,
    getterRule_layoutWord .softmute fun _ => rfl, getterRule_layoutWord .hcc fun _ => rfl,
    getterRule_layoutWord .snc fun _ => rfl, getterRule_layoutWord .p1ind fun _ => rfl,
    getterRule_layoutWord .deemph fun _ => rfl⟩

/-- Settles O18: SPLL is two parts of DOWN, and each other field is one. -/
theorem gettersOfDown : Obligations.GettersOfDown := by
  unfold Obligations.GettersOfDown
  simp only [← fourteenBits_eq]
  exact ⟨downGetterRule_layoutWord .ready fun _ => rfl, downGetterRule_layoutWord .blimit fun _ => rfl,
    downGetterRule_layoutWord .spll fun _ => rfl, downGetterRule_layoutWord .ifc fun _ => rfl,
    downGetterRule_layoutWord .rxstereo fun _ => rfl, downGetterRule_layoutWord .level fun _ => rfl⟩

end Sys2Proof.Machine

/-! COMMIT and REFRESH after their checks, by the environment's answer (R190, R191). -/

namespace Sys2Proof.Machine

open Sys2Proof.Claims

theorem commitBody_of_fail {s : State} {e : Byte} (h : (drawAnswer s).1 = .fail e) :
    commitBody s =
      { (drawAnswer s).2 with
        trace := s.trace ++ [.memWrite Config.devAddr s.up (.fail e), .response (failWord e)] } := by
  simp [commitBody, memWriteUp_eq, h, ackOf, raise_eq, errWord_transportFailure, State.emit]

theorem commitBody_of_ok {s : State} {b : Buffer} (h : (drawAnswer s).1 = .ok b) :
    commitBody s =
      { (drawAnswer s).2 with trace := s.trace ++ [.memWrite Config.devAddr s.up .ok, .response 0] } := by
  simp [commitBody, memWriteUp_eq, h, ackOf, respondOk_eq, State.emit]

theorem refreshBody_of_fail {s : State} {e : Byte} (h : (drawAnswer s).1 = .fail e) :
    refreshBody s =
      { (drawAnswer s).2 with
        trace := s.trace ++ [.memRead Config.devAddr (.fail e), .response (failWord e)] } := by
  simp [refreshBody, memRead_eq, h, raise_eq, errWord_transportFailure, State.emit]

theorem refreshBody_of_ok {s : State} {b : Buffer} (h : (drawAnswer s).1 = .ok b) :
    refreshBody s =
      { (drawAnswer s).2 with
        down := b
        trace := s.trace ++ [.memRead Config.devAddr (.ok b), .response 0] } := by
  simp [refreshBody, memRead_eq, h, respondOk_eq, State.emit, State.setDown]

/-- Settles O24: the checks, then COMMIT's body by the answer to its write. -/
theorem commitSendsUpVerbatim : Obligations.CommitSendsUpVerbatim := by
  unfold Obligations.CommitSendsUpVerbatim
  refine ⟨decodesPlain_of_noArgForm fun _ => rfl, fun hv s => ?_⟩
  have hexec : exec (.commit hv) s = .next (gate hv s (commitBody s)) := rfl
  rw [hexec, gate_eq_gated]
  cases ha : (drawAnswer s).1 with
  | fail e => rw [commitBody_of_fail ha]
  | ok b => rw [commitBody_of_ok ha]

/-- Settles O25: the checks, then REFRESH's body by the answer to its read. -/
theorem refreshReplacesDown : Obligations.RefreshReplacesDown := by
  unfold Obligations.RefreshReplacesDown
  refine ⟨decodesPlain_of_noArgForm fun _ => rfl, fun hv s => ?_⟩
  have hexec : exec (.refresh hv) s = .next (gate hv s (refreshBody s)) := rfl
  rw [hexec, gate_eq_gated]
  cases ha : (drawAnswer s).1 with
  | fail e => rw [refreshBody_of_fail ha]
  | ok b => rw [refreshBody_of_ok ha]

end Sys2Proof.Machine

/-! The words of a conversion (R95, R101, R102). -/

namespace Sys2Proof

open Sys2Proof.Machine Sys2Proof.Claims

/-- A word of a conversion's op decodes to the explicit form when `src` is set and `z1` and `z2` are zero, to the
coupled form when bits 55 to 40 are all zero, and to nothing otherwise. -/
theorem decode_convForm {cw : Word} {c e j : Instr} (h : decodeOp (unpackCw cw) = convForm (unpackCw cw) c e) :
    decode cw = .ok j ↔
      ((cw.extractLsb' 48 8 = 0 ∧ cw.extractLsb' 40 4 = 0 ∧ cw.getLsbD 47 = true) ∧ e = j) ∨
        (midOf cw = 0 ∧ c = j) := by
  have hmid : midOf cw = 0 ↔ _ := middle_zero_iff cw
  have hz1 : cw.extractLsb' 48 8 = (unpackCw cw).z1 := rfl
  have hz2 : cw.extractLsb' 40 4 = (unpackCw cw).z2 := rfl
  have hsrc : cw.getLsbD 47 = (unpackCw cw).src := rfl
  rw [decode, decodeFields_ok, h, convForm_ok, hmid, hz1, hz2, hsrc]
  tauto

/-- An op that R101's map gives the form of a conversion decodes as that form does. -/
theorem decodesConversion_of_convForm {op : BitVec 7} {coupled : Bool → BitVec 40 → Instr}
    {explicit : Bool → BitVec 40 → BitVec 2 → Bool → Instr}
    (h : ∀ f : CwFields, decodeOp { f with op := op } =
      convForm { f with op := op } (coupled f.hv f.arg) (explicit f.hv f.arg f.clk f.side)) :
    DecodesConversion op coupled explicit := by
  intro cw hop
  have hform : decodeOp (unpackCw cw) = convForm (unpackCw cw) (coupled (hvOf cw) (argOf cw))
      (explicit (hvOf cw) (argOf cw) (cw.extractLsb' 45 2) (cw.getLsbD 44)) := by
    subst hop
    exact h (unpackCw cw)
  split_ifs with hexplicit hcoupled
  · exact (decode_convForm hform).2 (.inl ⟨hexplicit, rfl⟩)
  · exact (decode_convForm hform).2 (.inr ⟨hcoupled, rfl⟩)
  · cases hd : decode cw with
    | error e => exact refused_of_decode_error hd
    | ok j =>
      rcases (decode_convForm hform).1 hd with ⟨hz, -⟩ | ⟨hz, -⟩
      · exact absurd hz hexplicit
      · exact absurd hz hcoupled

end Sys2Proof

/-! The two pure functions in the spec's constants, and their two round trips (R201, R204, R209, R210). -/

namespace Sys2Proof.Machine

open Sys2Proof.Claims

theorem kHz_eq_kOf (clk : Nat) : kHz clk = kOf clk := by
  match clk with
  | 0 | 1 | 2 | _ + 3 => rfl

theorem sgn_mul_ifHz (side : Bool) : sgn side * Config.ifHz = offsetOf side := by
  cases side <;> rfl

theorem truncDiv_eq_tdiv (n d : Int) : truncDiv n d = Int.tdiv n d := by
  unfold truncDiv
  split_ifs with hn
  · rw [Int.tdiv_eq_ediv_of_nonneg hn]
  · rw [← Int.tdiv_eq_ediv_of_nonneg (by omega), Int.neg_tdiv, Int.neg_neg]

theorem f2pFn_eq (fHz : Int) (clk : Nat) (side : Bool) :
    f2pFn fHz clk side = (kOf clk).map fun k => Int.tdiv (fHz + offsetOf side) k := by
  simp only [f2pFn, kHz_eq_kOf, sgn_mul_ifHz, truncDiv_eq_tdiv]

theorem p2fFn_eq (p clk : Nat) (side : Bool) :
    p2fFn p clk side = (kOf clk).map fun k => (p : Int) * k - offsetOf side := by
  simp only [p2fFn, kHz_eq_kOf, sgn_mul_ifHz]

theorem kOf_cases {clk : Nat} {k : Int} (h : kOf clk = some k) : k = 3250000 ∨ k = 8192 ∨ k = 1625000 := by
  match clk, h with
  | 0, rfl => decide
  | 1, rfl => decide
  | 2, rfl => decide

theorem kOf_pos {clk : Nat} {k : Int} (h : kOf clk = some k) : 0 < k := by
  rcases kOf_cases h with rfl | rfl | rfl <;> decide

theorem exists_kOf {clk : Nat} (h : clk ≤ 2) : ∃ k, kOf clk = some k := by
  interval_cases clk <;> exact ⟨_, rfl⟩

theorem offsetOf_cases (side : Bool) : offsetOf side = -225000 ∨ offsetOf side = 225000 := by
  cases side <;> decide

/-- The range of R209: the offset alone at one end, the largest word with the largest unit at the other. -/
theorem frequency_bounds {p clk : Nat} {k : Int} (hp : p ≤ 0x3FFF) (hk : kOf clk = some k) (side : Bool) :
    -225000 ≤ p * k - offsetOf side ∧ p * k - offsetOf side ≤ 53244975000 := by
  have ho := offsetOf_cases side
  rcases kOf_cases hk with rfl | rfl | rfl <;> omega

theorem hzFits_frequency {p clk : Nat} {k : Int} (hp : p ≤ 0x3FFF) (hk : kOf clk = some k) (side : Bool) :
    hzFits (p * k - offsetOf side) = true := by
  obtain ⟨hlo, hhi⟩ := frequency_bounds hp hk side
  exact decide_eq_true ⟨by omega, by omega⟩

/-- Settles O26: the model's constants are the spec's, and its truncated quotient is `Int.tdiv`. -/
theorem f2pTruncatesTowardZero : Obligations.F2pTruncatesTowardZero := by
  unfold Obligations.F2pTruncatesTowardZero
  exact fun fHz side => ⟨f2pFn_eq fHz 0 side, f2pFn_eq fHz 1 side, f2pFn_eq fHz 2 side⟩

/-- Settles O27: the range lies within what 40 bits of two's complement hold. -/
theorem p2fIsExactAndFits : Obligations.P2fIsExactAndFits := by
  unfold Obligations.P2fIsExactAndFits
  intro p clk side k hp hk
  obtain ⟨hlo, hhi⟩ := frequency_bounds hp hk side
  exact ⟨by rw [p2fFn_eq, hk, Option.map_some], hlo, hhi, toInt_ofInt_of_hzFits (hzFits_frequency hp hk side)⟩

/-- What truncation drops is less than one unit. -/
theorem abs_sub_tdiv_mul_lt (n : Int) {k : Int} (hk : 0 < k) : |n - n.tdiv k * k| < k := by
  have hrest : n - n.tdiv k * k = n.tmod k := by rw [Int.tmod_def, Int.mul_comm]
  rw [hrest]
  exact abs_lt.2 ⟨Int.lt_tmod_of_pos n hk, Int.tmod_lt_of_pos n hk⟩

/-- Truncation is toward zero. -/
theorem abs_tdiv_mul_le (n k : Int) : |n.tdiv k * k| ≤ |n| := by
  rw [Int.abs_eq_natAbs, Int.abs_eq_natAbs, Int.natAbs_mul, Int.natAbs_tdiv]
  exact Int.ofNat_le.2 (Nat.div_mul_le_self _ _)

/-- Settles O32: with the offset added back, the frequency that comes back is the word times the unit, which is what
truncation leaves. -/
theorem frequencyRoundTripWithinOneUnit : Obligations.FrequencyRoundTripWithinOneUnit := by
  unfold Obligations.FrequencyRoundTripWithinOneUnit
  intro fHz clk side k p hk hf hp
  rw [f2pFn_eq, hk, Option.map_some] at hf
  obtain rfl := Option.some.inj hf
  refine ⟨_, by rw [p2fFn_eq, hk, Option.map_some, Int.toNat_of_nonneg hp], ?_, ?_⟩
  · rw [sub_sub_eq_add_sub]
    exact abs_sub_tdiv_mul_lt _ (kOf_pos hk)
  · rw [Int.sub_add_cancel]
    exact abs_tdiv_mul_le _ _

end Sys2Proof.Machine

/-! The four conversions: where the coupled forms take clock and side from, and what each answers (R202, R205 to
R208). -/

namespace Sys2Proof.Machine

open Sys2Proof.Claims

/-- A part of one bit is that bit. -/
theorem readLoc_of_one_bit {l : Loc} (h : l.spans 1 = true) (b : Buffer) :
    readLoc l b = ((b.get l.byte).getLsbD l.shift).toNat := by
  have hlt : readLoc l b < 2 := readLoc_lt_of_spans h b
  have hbit : (readLoc l b).testBit 0 = (b.get l.byte).getLsbD l.shift := by simp [testBit_readLoc_of_spans h]
  rw [← hbit, Nat.testBit_zero]
  interval_cases readLoc l b <;> rfl

/-- CLK by the two bits that hold it. -/
theorem clkOf_eq (up : Buffer) : clkOf up = 2 * (up.b4.getLsbD 7).toNat + (up.b3.getLsbD 4).toNat := by
  have hhi := readLoc_of_one_bit (l := ⟨4, 0x80, 7⟩) (by decide) up
  have hlo := readLoc_of_one_bit (l := ⟨3, 0x10, 4⟩) (by decide) up
  exact congrArg₂ (fun hi lo => 2 * hi + lo) hhi hlo

theorem coupledClk_eq (s : State) : coupledClk s = clkOf s.up := by
  have hlo : readLoc ⟨3, 0x10, 4⟩ s.up < 2 ^ 1 := readLoc_lt_of_spans (by decide) s.up
  rw [coupledClk, upField, upLayout, readLayout, ← Nat.shiftLeft_add_eq_or_of_lt hlo, Nat.shiftLeft_eq, Nat.mul_comm]
  rfl

theorem coupledSide_eq (s : State) : coupledSide s = sideOf s.up := by
  have hinj : upField .inj s.up = (sideOf s.up).toNat := readLoc_of_one_bit (l := ⟨2, 0x10, 4⟩) (by decide) s.up
  rw [coupledSide, hinj]
  cases sideOf s.up <;> rfl

theorem f2pBody_eq (fHz : Int) (clk : Nat) (side : Bool) (s : State) :
    f2pBody fHz clk side s = answered (f2pAnswer fHz clk side) s := by
  have hmax : (maxPll : Int) = 0x3FFF := rfl
  rw [f2pBody, f2pFn_eq, f2pAnswer]
  cases kOf clk with
  | none => rfl
  | some k =>
    dsimp only [Option.map_some]
    generalize Int.tdiv (fHz + offsetOf side) k = p
    by_cases hin : 0 ≤ p ∧ p ≤ (maxPll : Int)
    · rw [decide_eq_true hin, inRange_true, if_neg (by omega)]
      exact respondOk_eq _ s
    · rw [decide_eq_false hin, inRange_false, if_pos (by omega)]
      rfl

theorem p2fBody_eq (p clk : Nat) (side : Bool) (s : State) :
    p2fBody p clk side s = answered (p2fAnswer p clk side) s := by
  have hmax : maxPll = 0x3FFF := rfl
  rw [p2fBody, p2fFn_eq, p2fAnswer, legalPll]
  by_cases hin : p ≤ maxPll
  · rw [decide_eq_true hin, inRange_true, if_neg (by omega)]
    cases kOf clk with
    | none => rfl
    | some k => exact respondOk_eq _ s
  · rw [decide_eq_false hin, inRange_false, if_pos (by omega)]
    rfl

theorem exec_f2p (hv : Bool) (fHz : Int) (s : State) : exec (.f2p hv fHz) s =
    .next (gated hv s (answered (f2pAnswer fHz (clkOf s.up) (sideOf s.up)) s)) := by
  rw [← f2pBody_eq, ← coupledClk_eq, ← coupledSide_eq, ← gate_eq_gated]
  rfl

theorem exec_f2px (hv : Bool) (fHz : Int) (clk : Nat) (side : Bool) (s : State) :
    exec (.f2px hv fHz clk side) s = .next (answered (f2pAnswer fHz clk side) s) := by
  rw [← f2pBody_eq]
  rfl

theorem exec_p2f (hv : Bool) (p : Nat) (s : State) : exec (.p2f hv p) s =
    .next (gated hv s (answered (p2fAnswer p (clkOf s.up) (sideOf s.up)) s)) := by
  rw [← p2fBody_eq, ← coupledClk_eq, ← coupledSide_eq, ← gate_eq_gated]
  rfl

theorem exec_p2fx (hv : Bool) (p clk : Nat) (side : Bool) (s : State) :
    exec (.p2fx hv p clk side) s = .next (answered (p2fAnswer p clk side) s) := by
  rw [← p2fBody_eq]
  rfl

/-- Settles O28: the words of op 0x05, and what the two forms answer. -/
theorem f2pForms : Obligations.F2pForms := by
  unfold Obligations.F2pForms
  exact ⟨decodesConversion_of_convForm fun _ => rfl, exec_f2p, fun hv fHz clk => exec_f2px hv fHz clk.toNat⟩

/-- Settles O29: the words of op 0x06, and what the two forms answer. -/
theorem p2fForms : Obligations.P2fForms := by
  unfold Obligations.P2fForms
  exact ⟨decodesConversion_of_convForm fun _ => rfl, exec_p2f, fun hv p clk => exec_p2fx hv p clk.toNat⟩

/-! The clock selector 3 (R203). -/

theorem f2pAnswer_clock_three (fHz : Int) (side : Bool) : f2pAnswer fHz 3 side = 0xA000000000000000 := rfl

theorem p2fAnswer_clock_three {p : Nat} (hp : p ≤ 0x3FFF) (side : Bool) :
    p2fAnswer p 3 side = 0xA000000000000000 := by
  rw [p2fAnswer, if_neg (by omega)]
  rfl

/-- Settles O30: the two bits of CLK make 3, which has no unit. -/
theorem clockThreeIsRefusedByConversions : Obligations.ClockThreeIsRefusedByConversions := by
  unfold Obligations.ClockThreeIsRefusedByConversions
  intro hv side fHz p s hp
  refine ⟨?_, ?_, fun hi hlo hhi => ?_⟩
  · rw [exec_f2px, f2pAnswer_clock_three]
  · rw [exec_p2fx, p2fAnswer_clock_three hp]
  · have hclk : clkOf s.up = 3 := by rw [clkOf_eq, hlo, hhi]; rfl
    rw [exec_f2p, exec_p2f, gated_of_inited hi, gated_of_inited hi, hclk, f2pAnswer_clock_three,
      p2fAnswer_clock_three hp]
    exact ⟨rfl, rfl⟩

/-! From a PLL word to its frequency and back (R210). -/

theorem dataOf_natCast {p : Nat} (hp : p < 2 ^ 40) : dataOf p = BitVec.ofNat 64 p := by
  rw [dataOf, BitVec.ofInt_natCast, BitVec.setWidth_ofNat_of_le_of_lt (by decide) hp]

theorem p2fAnswer_of_kOf {p clk : Nat} {k : Int} (hp : p ≤ 0x3FFF) (hk : kOf clk = some k) (side : Bool) :
    p2fAnswer p clk side = dataOf (p * k - offsetOf side) := by
  rw [p2fAnswer, if_neg (by omega), hk]

/-- The frequency of a word is a whole number of units from the offset frequency, so nothing is truncated. -/
theorem f2pAnswer_frequency {p clk : Nat} {k : Int} (hp : p ≤ 0x3FFF) (hk : kOf clk = some k) (side : Bool) :
    f2pAnswer (p * k - offsetOf side) clk side = BitVec.ofNat 64 p := by
  have hexact : Int.tdiv (p * k - offsetOf side + offsetOf side) k = p := by
    rw [Int.sub_add_cancel, Int.mul_tdiv_cancel _ (kOf_pos hk).ne']
  rw [f2pAnswer, hk]
  simp only [hexact]
  rw [if_neg (by omega), dataOf_natCast (by omega)]

/-- Settles O31: the frequency P2FX answers gives the word back exactly. -/
theorem pllRoundTrip : Obligations.PllRoundTrip := by
  unfold Obligations.PllRoundTrip
  intro p clk side s hp hc
  obtain ⟨k, hk⟩ := exists_kOf hc
  exact ⟨p * k - offsetOf side, hzFits_frequency hp hk side, by rw [exec_p2fx, p2fAnswer_of_kOf hp hk],
    by rw [exec_f2px, f2pAnswer_frequency hp hk]⟩

/-! What the answer of a conversion depends on (R212). -/

/-- The answer of a command that needs an initialized handle and then answers `rw` (R256). -/
def gatedAnswer (hv inited : Bool) (rw : Word) : Word :=
  if hv = false then 0x2000000000000000 else if inited = false then 0x4000000000000000 else rw

theorem gated_answered (hv : Bool) (rw : Word) (s : State) :
    gated hv s (answered rw s) = answered (gatedAnswer hv s.inited rw) s := by
  unfold gated gatedAnswer
  split_ifs <;> rfl

/-- The answer of a conversion, as a function of UP and INITED alone. -/
def conversionAnswer (up : Buffer) (inited : Bool) : Instr → Word
  | .f2p hv fHz => gatedAnswer hv inited (f2pAnswer fHz (clkOf up) (sideOf up))
  | .f2px _ fHz clk side => f2pAnswer fHz clk side
  | .p2f hv p => gatedAnswer hv inited (p2fAnswer p (clkOf up) (sideOf up))
  | .p2fx _ p clk side => p2fAnswer p clk side
  | _ => 0

theorem exec_of_converts {i : Instr} (h : converts i = true) (s : State) :
    exec i s = .next (answered (conversionAnswer s.up s.inited i) s) := by
  match i, h with
  | .f2p hv fHz, _ => rw [exec_f2p, gated_answered, conversionAnswer]
  | .f2px hv fHz clk side, _ => exact exec_f2px hv fHz clk side s
  | .p2f hv p, _ => rw [exec_p2f, gated_answered, conversionAnswer]
  | .p2fx hv p clk side, _ => exact exec_p2fx hv p clk side s

/-- The explicit forms read no state. -/
theorem conversionAnswer_of_explicitForm {i : Instr} (h : explicitForm i = true) (up up' : Buffer)
    (inited inited' : Bool) : conversionAnswer up inited i = conversionAnswer up' inited' i := by
  match i, h with
  | .f2px _ _ _ _, _ => rfl
  | .p2fx _ _ _ _, _ => rfl

/-- Settles O33: a conversion only answers, and what it answers is the same in both states. -/
theorem conversionsArePure : Obligations.ConversionsArePure := by
  unfold Obligations.ConversionsArePure
  intro i s s' hc hsame
  have hanswer : conversionAnswer s.up s.inited i = conversionAnswer s'.up s'.inited i := by
    rcases hsame with he | ⟨hup, hinited⟩
    · exact conversionAnswer_of_explicitForm he ..
    · rw [hup, hinited]
  exact ⟨_, exec_of_converts hc s, by rw [exec_of_converts hc s', hanswer]⟩

end Sys2Proof.Machine

/-! SEARCH and ABORT after their checks (R221, R222, R230). -/

namespace Sys2Proof.Machine

open Sys2Proof.Claims

/-- An OK response with an outcome has it in bits 60 and 59, above the data (R98). -/
theorem respWord_outcome (o : BitVec 2) (d : BitVec 40) :
    respWord 0 o 0 d = (o.setWidth 64 <<< 59) ||| d.setWidth 64 := by
  apply BitVec.eq_of_getLsbD_eq
  intro i hi
  have habove : 40 ≤ i → d.getLsbD i = false := BitVec.getLsbD_of_ge d i
  have houtcome : 61 ≤ i → o.getLsbD (i - 59) = false := fun h => BitVec.getLsbD_of_ge o _ (by omega)
  rw [getLsbD_respWord, BitVec.getLsbD_or, BitVec.getLsbD_shiftLeft, BitVec.getLsbD_setWidth, BitVec.getLsbD_setWidth]
  split_ifs <;> grind

theorem searchBody_of_fail {s : State} {e : Byte} (h : (drawAnswer s).1 = .fail e) (d : Nat) :
    searchBody d s =
      { (drawAnswer s).2 with
        up := searchUp d s.up
        trace := s.trace ++ [.memWrite Config.devAddr (searchUp d s.up) (.fail e), .response (failWord e)] } := by
  simp [searchBody, searchFields_eq_searchUp, memWriteUp_setUp, h, ackOf, raise_eq, errWord_transportFailure]

theorem searchBody_of_ok {s : State} {b : Buffer} (h : (drawAnswer s).1 = .ok b) (d : Nat) :
    searchBody d s =
      { (drawAnswer s).2 with
        up := searchUp d s.up
        fsm := .committed
        trace := s.trace ++ [.memWrite Config.devAddr (searchUp d s.up) .ok] } := by
  simp [searchBody, searchFields_eq_searchUp, memWriteUp_setUp, h, ackOf, State.setFsm]

theorem exec_search (hv : Bool) (d : Nat) (s : State) : exec (.search hv d) s =
    .next (gated hv s (if d ≤ 1 then searchBody d s else answered 0x8000000000000000 s)) := by
  have hexec : exec (.search hv d) s = .next (gate hv s (inRange (legalDirection d) s (searchBody d s))) := rfl
  rw [hexec, gate_eq_gated, inRange_eq]
  simp only [legalDirection, decide_eq_true_eq]

/-- Settles O34: the checks, then SEARCH's body by the answer to its write. -/
theorem searchCommitsDirectionAndMode : Obligations.SearchCommitsDirectionAndMode := by
  unfold Obligations.SearchCommitsDirectionAndMode
  refine ⟨decodesWithArg_of_plainForm fun _ => rfl, fun hv d s => ?_⟩
  rw [exec_search]
  cases ha : (drawAnswer s).1 with
  | fail e => rw [searchBody_of_fail ha]
  | ok b => rw [searchBody_of_ok ha]

theorem respondOutcome_cancelled (s : State) :
    respondOutcome outcomeCancelled 0 s = answered 0x1800000000000000 s := rfl

/-- ABORT after its checks: the Cancelled response of a search that is Committed or Polling, then its own. -/
theorem respondOk_cancelSearch (s : State) : respondOk 0 (cancelSearch s) =
    if s.fsm = .committed ∨ s.fsm = .polling then
      { s with fsm := .idle, trace := s.trace ++ [.response 0x1800000000000000, .response 0] }
    else answered 0 s := by
  rcases cancelSearch_cases s with ⟨hf, hc⟩ | ⟨hf, hc⟩ <;> rw [hc, respondOk_eq]
  · rw [if_pos hf, respondOutcome_cancelled]
    simp [answered, State.setFsm]
  · rw [if_neg (by rcases hf with hf | hf | hf <;> simp [hf])]
    rfl

/-- Settles O40: the checks, ABORT's body, and the words the command port accepts. -/
theorem abortCancelsSearch : Obligations.AbortCancelsSearch := by
  unfold Obligations.AbortCancelsSearch
  refine ⟨decodesPlain_of_noArgForm fun _ => rfl, fun hv s => ⟨?_, accepts_iff_readyFor⟩⟩
  have hexec : exec (.abort hv) s = .next (gate hv s (respondOk 0 (cancelSearch s))) := rfl
  rw [hexec, gate_eq_gated, respondOk_cancelSearch]

end Sys2Proof.Machine

/-! What the search controller reads of DOWN and writes of UP, bit by bit (R24, R82, R87, R227). -/

namespace Sys2Proof

open Sys2Proof.Machine Sys2Proof.Claims

theorem decide_readLoc_eq_one {l : Loc} (h : l.spans 1 = true) (b : Buffer) :
    decide (readLoc l b = 1) = (b.get l.byte).getLsbD l.shift := by
  have hbit := testBit_readLoc_of_spans h b 0
  have hlt : readLoc l b < 2 := readLoc_lt_of_spans h b
  rw [Nat.testBit_zero, Nat.mod_eq_of_lt hlt] at hbit
  simpa using hbit

theorem readyFlag_eq_readyOf (b : Buffer) : readyFlag b = readyOf b :=
  decide_readLoc_eq_one (l := ⟨0, 0x80, 7⟩) (by decide) b

theorem blimitFlag_eq_blimitOf (b : Buffer) : blimitFlag b = blimitOf b :=
  decide_readLoc_eq_one (l := ⟨0, 0x40, 6⟩) (by decide) b

/-- A part at the bottom of its byte, written with what another buffer holds there. -/
theorem writeLoc_readLoc {l : Loc} (hk : l.shift = 0) (src b : Buffer) :
    writeLoc l (readLoc l src) b = b.set l.byte ((b.get l.byte &&& ~~~l.mask) ||| (src.get l.byte &&& l.mask)) := by
  rw [writeLoc, ofNat_readLoc hk, hk, BitVec.shiftLeft_zero, BitVec.and_assoc, BitVec.and_self]

/-- The PLL field of UP and the SPLL field of DOWN have one layout, so the latch copies their two parts, of which the
low one is the whole of byte 1. -/
theorem setUpField_pll_spll (down up : Buffer) : setUpField .pll (downField .spll down) up = latchUp down up := by
  have hparts : setUpField .pll (downField .spll down) up =
      writeLoc ⟨1, 0xFF, 0⟩ (readLoc ⟨1, 0xFF, 0⟩ down) (writeLoc ⟨0, 0x3F, 0⟩ (readLoc ⟨0, 0x3F, 0⟩ down) up) := by
    rw [setUpField, downField, upLayout, downLayout, writeLayout, readLayout_two_shiftRight _ (by decide),
      readLayout_two_mod _ (by decide) rfl]
  have hb1 : (up.b1 &&& 0x00#8) ||| (down.b1 &&& 0xFF#8) = down.b1 := by
    rw [BitVec.and_zero, BitVec.zero_or]
    exact BitVec.and_allOnes
  rw [hparts, writeLoc_readLoc rfl, writeLoc_readLoc rfl]
  exact congrArg (fun x => { up with b0 := (up.b0 &&& 0xC0#8) ||| (down.b0 &&& 0x3F#8), b1 := x }) hb1

end Sys2Proof

/-! The steps of the search controller, one for each value of FSM (R223 to R227, R232). -/

namespace Sys2Proof.Machine

open Sys2Proof.Claims

/-- On the controller's turn, scheduled or not, the step is the controller's on the state with the turn taken. -/
theorem step_of_controller {s : State} (h : (turn s).1 = .controller) :
    step s = .next (controllerStep (moved s)) := by
  have hm : (turn s).2 = moved s := turn_frame s
  rw [step, h, hm, agentStep]

/-- Settles O35: the controller's step from Committed is one update of FSM. -/
theorem committedEntersPolling : Obligations.CommittedEntersPolling := by
  unfold Obligations.CommittedEntersPolling
  intro s ht hf
  rw [step_of_controller ht, controllerStep_committed (s := moved s) hf]
  rfl

theorem poll_of_fail {s : State} {e : Byte} (h : (drawAnswer s).1 = .fail e) :
    poll s =
      { (drawAnswer s).2 with
        fsm := .idle
        trace := s.trace ++ [.memRead Config.devAddr (.fail e), .response (failWord e)] } := by
  simp [poll, memRead_eq, h, raise_eq, errWord_transportFailure, State.emit, State.setFsm]

theorem poll_of_ok {s : State} {b : Buffer} (h : (drawAnswer s).1 = .ok b) :
    poll s =
      examineDown { (drawAnswer s).2 with down := b, trace := s.trace ++ [.memRead Config.devAddr (.ok b)] } := by
  simp [poll, memRead_eq, h, State.emit, State.setDown]

theorem examineDown_eq (s : State) : examineDown s =
    if readyOf s.down = false then { s with trace := s.trace ++ [.sleep Config.pollIntervalMs] }
    else if blimitOf s.down = true then { s with fsm := .bandLimit }
    else { s with fsm := .found } := by
  rw [examineDown, readyFlag_eq_readyOf, blimitFlag_eq_blimitOf]
  cases readyOf s.down <;> rfl

/-- Settles O36: a poll whose read fails. -/
theorem failedPollEndsSearch : Obligations.FailedPollEndsSearch := by
  unfold Obligations.FailedPollEndsSearch
  intro s e ht hf ha
  rw [step_of_controller ht, controllerStep_polling (s := moved s) hf, poll_of_fail ha]
  rfl

/-- Settles O37: a poll whose read succeeds stores the five bytes and looks at two bits of them. -/
theorem pollExaminesReadyThenBandLimit : Obligations.PollExaminesReadyThenBandLimit := by
  unfold Obligations.PollExaminesReadyThenBandLimit
  intro s b ht hf ha
  rw [step_of_controller ht, controllerStep_polling (s := moved s) hf, poll_of_ok ha, examineDown_eq]
  rfl

theorem respondOutcome_bandLimit (s : State) :
    respondOutcome outcomeBandLimit 0 s = answered 0x1000000000000000 s := rfl

/-- The Found response carries the fourteen bits of SPLL. -/
theorem respondOutcome_found (down : Buffer) (s : State) :
    respondOutcome outcomeFound (dataNat (downField .spll down)) s =
      answered (0x0800000000000000#64 ||| spllOf down) s := by
  have hdata : (dataNat (downField .spll down)).setWidth 64 = spllOf down := by
    rw [dataNat, BitVec.setWidth_ofNat_of_le_of_lt (by decide) (lt_trans (downField_lt .spll down) (by decide)),
      downField, ofNat_readLayout]
    exact fourteenBits_eq down.b0 down.b1
  have houtcome : outcomeFound.setWidth 64 <<< 59 = 0x0800000000000000#64 := rfl
  rw [respondOutcome, respWord_outcome, hdata, houtcome]
  rfl

theorem latchFound_eq (s : State) : latchFound s =
    { s with
      fsm := .idle
      up := latchUp s.down s.up
      trace := s.trace ++ [.response (0x0800000000000000#64 ||| spllOf s.down)] } := by
  simp only [latchFound, setUpField_pll_spll, respondOutcome_found]
  rfl

theorem reportBandLimit_eq (s : State) : reportBandLimit s =
    { s with fsm := .idle, trace := s.trace ++ [.response 0x1000000000000000] } := by
  rw [reportBandLimit, respondOutcome_bandLimit]
  rfl

/-- Settles O38: the latch, and the bits of SPLL as data. -/
theorem foundLatchesSearchedPll : Obligations.FoundLatchesSearchedPll := by
  unfold Obligations.FoundLatchesSearchedPll
  intro s ht hf
  rw [step_of_controller ht, controllerStep_found (s := moved s) hf, latchFound_eq]
  rfl

/-- Settles O39: the controller's step from BandLimit is one response and one update of FSM. -/
theorem bandLimitIsReported : Obligations.BandLimitIsReported := by
  unfold Obligations.BandLimitIsReported
  intro s ht hf
  rw [step_of_controller ht, controllerStep_bandLimit (s := moved s) hf, reportBandLimit_eq]
  rfl

end Sys2Proof.Machine

/-! What the controller leaves (R229, R306). -/

namespace Sys2Proof.Machine

open Sys2Proof.Claims

theorem poll_up_and_cmds (s : State) : (poll s).up = s.up ∧ (poll s).cmds = s.cmds := by
  rcases poll_cases s with ⟨e, -, hp⟩ | ⟨b, -, ⟨-, hp⟩ | ⟨-, -, hp⟩ | ⟨-, -, hp⟩⟩ <;> rw [hp]
  all_goals simp [raise_eq, sleepPoll, memRead_eq]

/-- The Found step latches; every other step of the controller leaves UP, and none takes a word. -/
theorem controllerStep_up_and_cmds (s : State) :
    (controllerStep s).up = (if s.fsm = .found then latchUp s.down s.up else s.up) ∧
      (controllerStep s).cmds = s.cmds := by
  cases hs : s.fsm with
  | idle => rw [controllerStep_idle hs]; exact ⟨rfl, rfl⟩
  | committed => rw [controllerStep_committed hs]; exact ⟨rfl, rfl⟩
  | polling => rw [controllerStep_polling hs]; exact poll_up_and_cmds s
  | found => rw [controllerStep_found hs, latchFound_eq]; exact ⟨rfl, rfl⟩
  | bandLimit => rw [controllerStep_bandLimit hs]; exact ⟨rfl, rfl⟩

/-- MUTE and SMODE lie above the high part of PLL. -/
theorem latchUp_b0_high (down up : Buffer) : (latchUp down up).b0 &&& 0xC0#8 = up.b0 &&& 0xC0#8 := by
  have hlow : 0x3F#8 &&& 0xC0#8 = 0#8 := rfl
  rw [latchUp, BitVec.and_or_distrib_right, BitVec.and_assoc, BitVec.and_self, BitVec.and_assoc, hlow, BitVec.and_zero,
    BitVec.or_zero]

/-- Settles O44: of the controller's steps only the latch writes UP, and it writes bytes 0 and 1. -/
theorem controllerWritesOnlyPllOfUp : Obligations.ControllerWritesOnlyPllOfUp := by
  unfold Obligations.ControllerWritesOnlyPllOfUp
  intro s t ht hs
  obtain rfl : controllerStep (moved s) = t := Host.Outcome.next.inj ((step_of_controller ht).symm.trans hs)
  obtain ⟨hup, hcmds⟩ := controllerStep_up_and_cmds (moved s)
  rw [hup, hcmds, controllerStep_inited]
  split_ifs with hf
  · exact ⟨latchUp_b0_high _ _, rfl, rfl, rfl, rfl, rfl⟩
  · exact ⟨rfl, rfl, rfl, rfl, rfl, rfl⟩

end Sys2Proof.Machine

/-! A search over many steps (R229, R231, R233). -/

namespace Sys2Proof.Machine

open Sys2Proof.Claims

/-- A word other than ABORT is not accepted in a search. -/
theorem hostReady_eq_false {s : State} (hport : ∀ cw r, s.cmds = cw :: r → opOf cw ≠ 0x08) (hf : s.fsm ≠ .idle) :
    hostReady s = false := by
  cases hc : s.cmds with
  | nil => simp [hostReady, hc]
  | cons cw r =>
    have hn : ¬ readyFor s.fsm cw := fun h => h.elim hf fun ⟨_, hop⟩ => hport cw r hc hop
    rw [← accepts_iff_readyFor, Bool.not_eq_true] at hn
    simpa [hostReady, hc] using hn

/-- With this schedule and these words to come, the next `n` turns are the controller's as long as a search runs, and
`q` is left: the schedule says so, or it is used up and no ABORT word is on the port (log entry 2). -/
def ControllerTurns (n : Nat) (q sched : List Turn) (cmds : List Word) : Prop :=
  sched = List.replicate n .controller ++ q ∨ (sched = [] ∧ q = [] ∧ ∀ cw r, cmds = cw :: r → opOf cw ≠ 0x08)

namespace ControllerTurns

variable {n k : Nat} {q sched : List Turn} {cmds : List Word} {s : State}

theorem drop_eq (h : ControllerTurns n q sched cmds) : sched.drop n = q := by
  rcases h with h | ⟨h, hq, -⟩
  · rw [h]
    exact List.drop_left' List.length_replicate
  · rw [h, hq, List.drop_nil]

theorem drop (h : ControllerTurns (n + k) q sched cmds) : ControllerTurns n q (sched.drop k) cmds := by
  rcases h with h | ⟨h, hq, hport⟩
  · left
    rw [h, Nat.add_comm, List.replicate_add, List.append_assoc]
    exact List.drop_left' List.length_replicate
  · exact .inr ⟨by rw [h, List.drop_nil], hq, hport⟩

theorem tail (h : ControllerTurns (n + 1) q sched cmds) : ControllerTurns n q sched.tail cmds :=
  List.drop_one ▸ h.drop

theorem turn_eq (h : ControllerTurns (n + 1) q s.sched s.cmds) (hf : s.fsm ≠ .idle) :
    turn s = (.controller, { s with sched := s.sched.tail }) := by
  rcases h with h | ⟨h, -, hport⟩
  · have h : s.sched = .controller :: (List.replicate n .controller ++ q) := h
    simp [turn, h]
  · have hs : s = { s with sched := s.sched.tail } := by rw [h, List.tail_nil, ← h]
    simpa [turn, h, hf, hostReady_eq_false hport hf] using hs

theorem turn_fst (h : ControllerTurns (n + 1) q s.sched s.cmds) (hf : s.fsm ≠ .idle) : (turn s).1 = .controller :=
  congrArg Prod.fst (h.turn_eq hf)

theorem moved_eq (h : ControllerTurns (n + 1) q s.sched s.cmds) (hf : s.fsm ≠ .idle) :
    moved s = { s with sched := s.sched.tail } := by
  rw [moved, h.turn_eq hf]

end ControllerTurns

section

variable {n d : Nat} {q : List Turn} {s : State} {b w : Buffer} {bs : List Buffer} {rest : List Answer} {cw : Word}

theorem step_committed (h : ControllerTurns (n + 1) q s.sched s.cmds) (hf : s.fsm = .committed) :
    step s = .next { s with fsm := .polling, sched := s.sched.tail } := by
  have hrun : s.fsm ≠ .idle := by simp [hf]
  rw [committedEntersPolling s (h.turn_fst hrun) hf, h.moved_eq hrun]

/-- A poll that is not ready. -/
theorem step_poll_notReady (h : ControllerTurns (n + 1) q s.sched s.cmds) (hf : s.fsm = .polling)
    (he : s.env = .ok b :: rest) (hb : readyOf b = false) : step s = .next { s with
      down := b
      env := rest
      sched := s.sched.tail
      trace := s.trace ++ notReadyEvents [b] } := by
  have hrun : s.fsm ≠ .idle := by simp [hf]
  have hd : drawAnswer (moved s) = (.ok b, { moved s with env := rest }) := drawAnswer_cons he
  rw [pollExaminesReadyThenBandLimit s b (h.turn_fst hrun) hf (congrArg Prod.fst hd), hd, h.moved_eq hrun]
  simp [hb, notReadyEvents]

/-- A poll that is ready. -/
theorem step_poll_ready (h : ControllerTurns (n + 1) q s.sched s.cmds) (hf : s.fsm = .polling)
    (he : s.env = .ok b :: rest) (hb : readyOf b = true) : step s = .next { s with
      down := b
      fsm := if blimitOf b then .bandLimit else .found
      env := rest
      sched := s.sched.tail
      trace := s.trace ++ [.memRead Config.devAddr (.ok b)] } := by
  have hrun : s.fsm ≠ .idle := by simp [hf]
  have hd : drawAnswer (moved s) = (.ok b, { moved s with env := rest }) := drawAnswer_cons he
  rw [pollExaminesReadyThenBandLimit s b (h.turn_fst hrun) hf (congrArg Prod.fst hd), hd, h.moved_eq hrun]
  cases hl : blimitOf b <;> simp [hb]

/-- The last step of a search whose last poll was ready (R227, R232). -/
theorem step_outcome (h : ControllerTurns (n + 1) q s.sched s.cmds)
    (hf : s.fsm = if blimitOf s.down then .bandLimit else .found) : step s = .next { s with
      up := if blimitOf s.down then s.up else latchUp s.down s.up
      fsm := .idle
      sched := s.sched.tail
      trace := s.trace ++
        [.response (if blimitOf s.down then 0x1000000000000000 else 0x0800000000000000#64 ||| spllOf s.down)] } := by
  cases hl : blimitOf s.down with
  | false =>
    have hf : s.fsm = .found := by simpa [hl] using hf
    have hrun : s.fsm ≠ .idle := by simp [hf]
    rw [foundLatchesSearchedPll s (h.turn_fst hrun) hf, h.moved_eq hrun]
    rfl
  | true =>
    have hf : s.fsm = .bandLimit := by simpa [hl] using hf
    have hrun : s.fsm ≠ .idle := by simp [hf]
    rw [bandLimitIsReported s (h.turn_fst hrun) hf, h.moved_eq hrun]
    rfl

/-- Polls that are not ready go on, one step each (R226, R231). -/
theorem runSteps_polls_notReady (h : ControllerTurns (n + bs.length) q s.sched s.cmds) (hf : s.fsm = .polling)
    (he : s.env = bs.map Answer.ok ++ rest) (hbs : ∀ c ∈ bs, readyOf c = false) :
    runSteps bs.length s = .next { s with
      down := bs.getLastD s.down
      env := rest
      sched := s.sched.drop bs.length
      trace := s.trace ++ notReadyEvents bs } := by
  induction bs generalizing s with
  | nil =>
    obtain rfl : s.env = rest := he
    simp [runSteps, notReadyEvents]
  | cons b bs ih =>
    have he : s.env = .ok b :: (bs.map Answer.ok ++ rest) := he
    obtain ⟨hb, hbs⟩ := List.forall_mem_cons.1 hbs
    calc runSteps (bs.length + 1) s
      _ = runSteps bs.length _ := runSteps_succ _ (step_poll_notReady h hf he hb)
      _ = _ := ih h.tail hf rfl hbs
      _ = _ := by rw [List.getLastD_cons]; simp [notReadyEvents]

/-- A running search ends two steps after its polls that are not ready (R229). -/
theorem runSteps_polling (h : ControllerTurns (bs.length + 2) q s.sched s.cmds) (hf : s.fsm = .polling)
    (he : s.env = bs.map Answer.ok ++ .ok b :: rest) (hbs : ∀ c ∈ bs, readyOf c = false) (hb : readyOf b = true) :
    runSteps (bs.length + 2) s = .next { s with
      up := if blimitOf b then s.up else latchUp b s.up
      down := b
      fsm := .idle
      env := rest
      sched := q
      trace := s.trace ++ notReadyEvents bs ++
        [.memRead Config.devAddr (.ok b),
          .response (if blimitOf b then 0x1000000000000000 else 0x0800000000000000#64 ||| spllOf b)] } := by
  have hend : s.sched.drop (bs.length + 2) = q := h.drop_eq
  rw [Nat.add_comm] at h
  calc runSteps (bs.length + 2) s
    _ = runSteps 2 _ := runSteps_add _ _ (runSteps_polls_notReady h hf he hbs)
    _ = runSteps 1 _ := runSteps_succ 1 (step_poll_ready h.drop hf rfl hb)
    _ = runSteps 0 _ := runSteps_succ 0 (step_outcome h.drop.tail rfl)
    _ = _ := by simp [runSteps, hend]

theorem exec_search_commits (hi : s.inited = true) (hdir : d ≤ 1) (he : s.env = .ok w :: rest) :
    exec (.search true d) s = .next { s with
      up := searchUp d s.up
      fsm := .committed
      env := rest
      trace := s.trace ++ [.memWrite Config.devAddr (searchUp d s.up) .ok] } := by
  have ha : drawAnswer s = (.ok w, { s with env := rest }) := drawAnswer_cons he
  rw [exec_search, if_pos hdir, gated_of_inited hi, searchBody_of_ok (congrArg Prod.fst ha), ha]

/-- The host's turn, first on the schedule or by log entry 2, with a SEARCH on the port whose commit succeeds. -/
theorem step_search_starts (hs : s.sched.head? = some .host ∨ s.sched = []) (hi : s.inited = true) (hf : s.fsm = .idle)
    (hc : s.cmds = [cw]) (hd : decode cw = .ok (.search true d)) (hdir : d ≤ 1) (he : s.env = .ok w :: rest) :
    step s = .next { s with
      up := searchUp d s.up
      fsm := .committed
      cmds := []
      env := rest
      sched := s.sched.tail
      trace := s.trace ++ [.memWrite Config.devAddr (searchUp d s.up) .ok] } := by
  have hturn : turn s = (.host, { s with sched := s.sched.tail }) := by
    rcases hs with hs | hs
    · obtain ⟨r, hr⟩ := List.head?_eq_some_iff.1 hs
      simp [turn, hr]
    · have hsame : s = { s with sched := s.sched.tail } := by rw [hs, List.tail_nil, ← hs]
      simpa [turn, hs, hf] using hsame
  have hmoved : moved s = { s with sched := s.sched.tail } := by rw [moved, hturn]
  rw [step_accepted (congrArg Prod.fst hturn) hc (.inl hf), execWord_ok hd, hmoved]
  exact exec_search_commits hi hdir he

end

/-- Settles O43, by induction on the polls, for either order of the agents. -/
theorem searchPollsWithoutTimeout : Obligations.SearchPollsWithoutTimeout := by
  unfold Obligations.SearchPollsWithoutTimeout
  intro s bs rest q hf hs he hbs
  have hleft : s.sched.drop bs.length = q := ControllerTurns.drop_eq hs
  rw [runSteps_polls_notReady (n := 0) (by rwa [Nat.zero_add]) hf he hbs, hleft]

/-- Settles O42: the step that starts the search, the step to Polling, and the polls to the outcome. -/
theorem searchRunsToItsOutcome : Obligations.SearchRunsToItsOutcome := by
  unfold Obligations.SearchRunsToItsOutcome
  intro s cw d w bs b rest q hi hf hc hs hd hdir he hbs hb
  have hhost : s.sched.head? = some .host ∨ s.sched = [] := hs.imp (fun h => by rw [h]; rfl) And.left
  have hturns : ControllerTurns (bs.length + 3) q s.sched.tail [] :=
    hs.imp (fun h => by rw [h]; rfl) fun ⟨h, hq⟩ => ⟨by rw [h]; rfl, hq, by simp⟩
  calc runSteps (bs.length + 4) s
    _ = runSteps (bs.length + 3) _ := runSteps_succ _ (step_search_starts hhost hi hf hc hd hdir he)
    _ = runSteps (bs.length + 2) _ := runSteps_succ _ (step_committed hturns rfl)
    _ = _ := runSteps_polling hturns.tail rfl rfl hbs hb
    _ = _ := by simp [hf]

end Sys2Proof.Machine

/-! The handle and the gate (R252, R254): every gated command is its checks around a body. -/

namespace Sys2Proof.Machine

open Sys2Proof.Claims

/-- Bit 63 of a command's word is its handle-valid bit (R95). -/
theorem encode_getLsbD_63 (i : Instr) : (encode i).getLsbD 63 = (encodeFields i).hv :=
  congrArg CwFields.hv (unpackCw_packCw (encodeFields i))

/-- Of the commands that check the handle only INIT is not gated (R254). -/
theorem needsInit_or_init {i : Instr} (h : needsHandle i = true) : needsInit i = true ∨ ∃ hv, i = .init hv := by
  unfold needsInit
  split
  · exact .inr ⟨_, rfl⟩
  · exact .inl h

theorem needsHandle_of_needsInit {i : Instr} (h : needsInit i = true) : needsHandle i = true := by
  unfold needsInit at h
  split at h
  · cases h
  · exact h

theorem encodeFields_setterOf_hv (f : UpField) (hv : Bool) (v : Nat) : (encodeFields (setterOf hv v f)).hv = hv := by
  cases f <;> rfl

theorem encodeFields_getterOf_hv (f : UpField) (hv : Bool) : (encodeFields (getterOf hv f)).hv = hv := by
  cases f <;> rfl

theorem encodeFields_downGetterOf_hv (f : DownField) (hv : Bool) : (encodeFields (downGetterOf hv f)).hv = hv := by
  cases f <;> rfl

/-- A command that needs an initialized handle does nothing before its two checks. -/
theorem exec_eq_gated {i : Instr} (h : needsInit i = true) (s : State) :
    ∃ b, exec i s = .next (gated (encodeFields i).hv s b) := by
  suffices hg : ∃ b, exec i s = .next (gate (encodeFields i).hv s b) by
    obtain ⟨b, hb⟩ := hg
    exact ⟨b, by rw [hb, gate_eq_gated]⟩
  cases i using Instr.family_cases with
  | init hv => cases h
  | info hv => cases h
  | f2px hv fHz clk side => cases h
  | p2fx hv pll clk side => cases h
  | deinit hv => exact ⟨_, rfl⟩
  | commit hv => exact ⟨_, rfl⟩
  | refresh hv => exact ⟨_, rfl⟩
  | f2p hv fHz => exact ⟨_, rfl⟩
  | p2f hv pll => exact ⟨_, rfl⟩
  | search hv dir => exact ⟨_, rfl⟩
  | abort hv => exact ⟨_, rfl⟩
  | setter f hv v => rw [encodeFields_setterOf_hv]; exact ⟨_, exec_setterOf f hv v s⟩
  | getter f hv => rw [encodeFields_getterOf_hv]; exact ⟨_, exec_getterOf f hv s⟩
  | downGetter f hv => rw [encodeFields_downGetterOf_hv]; exact ⟨_, exec_downGetterOf f hv s⟩

/-- Settles O45: the handle is the first check of every gated command, and the only one of INIT. -/
theorem absentHandleAnswersInvalidHandle : Obligations.AbsentHandleAnswersInvalidHandle := by
  unfold Obligations.AbsentHandleAnswersInvalidHandle
  intro i s hi hv
  rw [encode_getLsbD_63] at hv
  rcases needsInit_or_init hi with hg | ⟨hv', rfl⟩
  · obtain ⟨b, hb⟩ := exec_eq_gated hg s
    rw [hb, hv, gated, if_pos rfl]
  · obtain rfl : hv' = false := hv
    rfl

end Sys2Proof.Machine

/-! How a command ends (R250, R251, R255, R261): served, refused by a check or its operands, or failed by the
transport. -/

namespace Sys2Proof.Machine

open Sys2Proof.Claims

/-- A response with the status `st`, INFO's included, or no response at all. -/
def AnswersWith (st : BitVec 3) : Event → Prop
  | .response rw => statusOf rw = st
  | .infoResponse rw _ => statusOf rw = st
  | _ => True

/-! For each event, what `AnswersWith` says of it. -/

section

variable (st : BitVec 3)

@[simp] theorem answersWith_busAcquire (r : Ack) : AnswersWith st (.busAcquire r) := trivial
@[simp] theorem answersWith_busRelease (r : Ack) : AnswersWith st (.busRelease r) := trivial
@[simp] theorem answersWith_memWrite (a : Nat) (b : Buffer) (r : Ack) : AnswersWith st (.memWrite a b r) := trivial
@[simp] theorem answersWith_memRead (a : Nat) (r : Answer) : AnswersWith st (.memRead a r) := trivial
@[simp] theorem answersWith_response (rw : Word) : AnswersWith st (.response rw) ↔ statusOf rw = st := Iff.rfl

end

@[simp] theorem statusOf_zero : statusOf 0#64 = 0#3 := rfl

theorem answersWith_errWord (e : Err) : AnswersWith e.code (.response (errWord e)) := statusOf_respWord _ _ _ _

@[simp] theorem statusOf_failWord (e : Byte) : statusOf (failWord e) = 3 := by
  rw [← errWord_transportFailure]
  exact answersWith_errWord (.transportFailure e)

/-- Every conversion has a range to check (R253). -/
theorem ranged_of_converts {i : Instr} (h : converts i = true) : ranged i = true := by
  unfold converts at h
  split at h
  case h_1 | h_2 | h_3 | h_4 => rfl
  case h_5 => cases h

/-- What the command `i` has written when it ends in a TransportFailure (R255). -/
structure FailureResidue (i : Instr) (s t : State) : Prop where
  down : t.down = s.down
  inited : t.inited = s.inited
  fsm : t.fsm = s.fsm
  up : t.up = s.up ∨ (∃ hv, i = .deinit hv ∧ t.up = standby s.up) ∨ ∃ hv d, i = .search hv d ∧ t.up = searchUp d s.up

/-- The three ways in which the command `i`, executed in the first state, can end in the second. -/
inductive EndsAs (i : Instr) : State → State → Prop
  | served {s t : State} (answers : AddsOnly (AnswersWith 0) s t) : EndsAs i s t
  | refused (e : Err) (s : State) (tabled : mayAnswer i e.code) : EndsAs i s (raise e s)
  | failed {s t : State} (io : doesIo i = true) (answers : AddsOnly (AnswersWith 3) s t)
      (residue : FailureResidue i s t) : EndsAs i s t

namespace EndsAs

variable {i : Instr} {s t : State}

theorem respondOk (i : Instr) (d : BitVec 40) (s : State) : EndsAs i s (respondOk d s) :=
  .served ((AddsOnly.refl _ s).emit (statusOf_respWord _ _ _ _))

theorem invalidHandle (h : needsHandle i = true) (s : State) : EndsAs i s (raise .invalidHandle s) :=
  .refused _ s (.inr (.inl ⟨rfl, h⟩))

theorem notInitialized (h : needsInit i = true) (s : State) : EndsAs i s (raise .notInitialized s) :=
  .refused _ s (.inr (.inr (.inl ⟨rfl, h⟩)))

theorem outOfRange (h : ranged i = true) (s : State) : EndsAs i s (raise .outOfRange s) :=
  .refused _ s (.inr (.inr (.inr (.inr (.inl ⟨rfl, h⟩)))))

theorem invalidClock (h : converts i = true) (s : State) : EndsAs i s (raise .invalidClock s) :=
  .refused _ s (.inr (.inr (.inr (.inr (.inr ⟨rfl, h⟩)))))

theorem gate (h : EndsAs i s t) (hi : needsInit i = true) (hv : Bool) : EndsAs i s (gate hv s t) := by
  rcases gate_cases hv s t with ⟨-, e⟩ | ⟨-, -, e⟩ | ⟨-, -, e⟩ <;> rw [e]
  · exact invalidHandle (needsHandle_of_needsInit hi) s
  · exact notInitialized hi s
  · exact h

theorem inRange (h : EndsAs i s t) (hi : ranged i = true) (legal : Bool) : EndsAs i s (inRange legal s t) := by
  cases legal
  · exact outOfRange hi s
  · exact h

theorem init (hv : Bool) (s : State) : EndsAs (.init hv) s (withHandle hv s (initBody s)) := by
  cases hv
  · exact invalidHandle rfl s
  · rw [withHandle_true]
    cases ha : (drawAnswer s).1 with
    | fail e =>
      rw [initBody_of_fail ha]
      exact .failed rfl ⟨_, rfl, by simp⟩ ⟨by simp, by simp, by simp, .inl (by simp)⟩
    | ok b =>
      rw [initBody_of_ok ha]
      exact .served ⟨_, rfl, by simp⟩

/-- Whichever of DEINIT's two transactions fails, STBY is what is left (R122). -/
theorem deinitBody (hv : Bool) (s : State) : EndsAs (.deinit hv) s (deinitBody s) := by
  cases hw : (drawAnswer s).1 with
  | fail e =>
    rw [deinitBody_of_write_fail hw]
    exact .failed rfl ⟨_, rfl, by simp⟩ ⟨by simp, by simp, by simp, .inr (.inl ⟨hv, rfl, rfl⟩)⟩
  | ok b =>
    cases hr : (drawAnswer (drawAnswer s).2).1 with
    | fail e =>
      rw [deinitBody_of_release_fail hw hr]
      exact .failed rfl ⟨_, rfl, by simp⟩ ⟨by simp, by simp, by simp, .inr (.inl ⟨hv, rfl, rfl⟩)⟩
    | ok b' =>
      rw [deinitBody_of_ok hw hr]
      exact .served ⟨_, rfl, by simp⟩

theorem commitBody (hv : Bool) (s : State) : EndsAs (.commit hv) s (commitBody s) := by
  cases ha : (drawAnswer s).1 with
  | fail e =>
    rw [commitBody_of_fail ha]
    exact .failed rfl ⟨_, rfl, by simp⟩ ⟨by simp, by simp, by simp, .inl (by simp)⟩
  | ok b =>
    rw [commitBody_of_ok ha]
    exact .served ⟨_, rfl, by simp⟩

theorem refreshBody (hv : Bool) (s : State) : EndsAs (.refresh hv) s (refreshBody s) := by
  cases ha : (drawAnswer s).1 with
  | fail e =>
    rw [refreshBody_of_fail ha]
    exact .failed rfl ⟨_, rfl, by simp⟩ ⟨by simp, by simp, by simp, .inl (by simp)⟩
  | ok b =>
    rw [refreshBody_of_ok ha]
    exact .served ⟨_, rfl, by simp⟩

/-- A SEARCH whose commit fails leaves its two fields written (R221, R229). -/
theorem searchBody (hv : Bool) (d : Nat) (s : State) : EndsAs (.search hv d) s (searchBody d s) := by
  cases ha : (drawAnswer s).1 with
  | fail e =>
    rw [searchBody_of_fail ha]
    exact .failed rfl ⟨_, rfl, by simp⟩ ⟨by simp, by simp, by simp, .inr (.inr ⟨hv, d, rfl, rfl⟩)⟩
  | ok b =>
    rw [searchBody_of_ok ha]
    exact .served ⟨_, rfl, by simp⟩

theorem f2pBody (h : converts i = true) (fHz : Int) (clk : Nat) (side : Bool) (s : State) :
    EndsAs i s (f2pBody fHz clk side s) := by
  rcases f2pBody_cases fHz clk side s with ⟨-, hb⟩ | ⟨p, -, hb⟩ <;> rw [hb]
  · exact invalidClock h s
  · exact (respondOk i _ s).inRange (ranged_of_converts h) _

theorem p2fBody (h : converts i = true) (p clk : Nat) (side : Bool) (s : State) :
    EndsAs i s (p2fBody p clk side s) := by
  rcases p2fBody_cases p clk side s with ⟨-, hb⟩ | ⟨f, -, hb⟩ <;> rw [hb]
  · exact (invalidClock h s).inRange (ranged_of_converts h) _
  · exact (respondOk i _ s).inRange (ranged_of_converts h) _

/-- The Cancelled response by which an ABORT ends a search has status 0 too (R230). -/
theorem abortBody (i : Instr) (s : State) : EndsAs i s (Machine.respondOk 0 (cancelSearch s)) := by
  have hc : AddsOnly (AnswersWith 0) s (cancelSearch s) := by
    rcases cancelSearch_cases s with ⟨-, hb⟩ | ⟨-, hb⟩ <;> rw [hb]
    · exact ((AddsOnly.refl _ s).emit (statusOf_respWord _ _ _ _)).setFsm .idle
    · exact AddsOnly.refl _ s
  exact .served (hc.emit (statusOf_respWord _ _ _ _))

/-- However a command ends, all its responses have one status, which R251's table gives it. -/
theorem answers (h : EndsAs i s t) : ∃ st, mayAnswer i st ∧ AddsOnly (AnswersWith st) s t := by
  cases h with
  | served h => exact ⟨0, .inl rfl, h⟩
  | refused e _ hi => exact ⟨_, hi, (AddsOnly.refl _ s).emit (answersWith_errWord e)⟩
  | failed hi h _ => exact ⟨3, .inr (.inr (.inr (.inl ⟨rfl, hi⟩))), h⟩

end EndsAs

theorem needsInit_setterOf (f : UpField) (hv : Bool) (v : Nat) : needsInit (setterOf hv v f) = true := by
  cases f <;> rfl

theorem needsInit_getterOf (f : UpField) (hv : Bool) : needsInit (getterOf hv f) = true := by
  cases f <;> rfl

theorem needsInit_downGetterOf (f : DownField) (hv : Bool) : needsInit (downGetterOf hv f) = true := by
  cases f <;> rfl

theorem ranged_setterOf (f : UpField) (hv : Bool) (v : Nat) : ranged (setterOf hv v f) = true := by
  cases f <;> rfl

/-- A command completes, and ends in one of the three ways. -/
theorem exec_endsAs (i : Instr) (s : State) : ∃ t, exec i s = .next t ∧ EndsAs i s t := by
  cases i using Instr.family_cases with
  | init hv => exact ⟨_, rfl, EndsAs.init hv s⟩
  | deinit hv => exact ⟨_, rfl, (EndsAs.deinitBody hv s).gate rfl hv⟩
  | commit hv => exact ⟨_, rfl, (EndsAs.commitBody hv s).gate rfl hv⟩
  | refresh hv => exact ⟨_, rfl, (EndsAs.refreshBody hv s).gate rfl hv⟩
  | info hv => exact ⟨_, rfl, .served ((AddsOnly.refl _ s).emit (statusOf_respWord _ _ _ _))⟩
  | f2p hv fHz => exact ⟨_, rfl, (EndsAs.f2pBody rfl fHz _ _ s).gate rfl hv⟩
  | f2px hv fHz clk side => exact ⟨_, rfl, EndsAs.f2pBody rfl fHz clk side s⟩
  | p2f hv pll => exact ⟨_, rfl, (EndsAs.p2fBody rfl pll _ _ s).gate rfl hv⟩
  | p2fx hv pll clk side => exact ⟨_, rfl, EndsAs.p2fBody rfl pll clk side s⟩
  | search hv dir => exact ⟨_, rfl, ((EndsAs.searchBody hv dir s).inRange rfl _).gate rfl hv⟩
  | abort hv => exact ⟨_, rfl, (EndsAs.abortBody _ s).gate rfl hv⟩
  | setter f hv v =>
    have hw : AddsOnly (AnswersWith 0) s (setBody f v s) :=
      ((AddsOnly.refl _ s).setUp _).emit (statusOf_respWord _ _ _ _)
    have hr := (EndsAs.served hw).inRange (ranged_setterOf f hv v) (legalSet f v)
    exact ⟨_, exec_setterOf f hv v s, hr.gate (needsInit_setterOf f hv v) hv⟩
  | getter f hv => exact ⟨_, exec_getterOf f hv s, (EndsAs.respondOk _ _ s).gate (needsInit_getterOf f hv) hv⟩
  | downGetter f hv =>
    exact ⟨_, exec_downGetterOf f hv s, (EndsAs.respondOk _ _ s).gate (needsInit_downGetterOf f hv) hv⟩

theorem endsAs_of_exec {i : Instr} {s t : State} (h : exec i s = .next t) : EndsAs i s t := by
  obtain ⟨u, hu, hends⟩ := exec_endsAs i s
  rwa [← Host.Outcome.next.inj (hu.symm.trans h)]

/-- Status 2 is in R251's table for the gated commands only. -/
theorem needsInit_of_mayAnswer {i : Instr} (h : mayAnswer i 2) : needsInit i = true := by
  simpa [mayAnswer] using h

/-- Settles O46: a gated command makes its two checks first, and one that is not gated may not answer status 2. -/
theorem gateAnswersNotInitialized : Obligations.GateAnswersNotInitialized := by
  unfold Obligations.GateAnswersNotInitialized
  intro i s
  refine ⟨fun hi hv hinit => ?_, fun hi => ?_⟩
  · obtain ⟨b, hb⟩ := exec_eq_gated hi s
    rw [encode_getLsbD_63] at hv
    rw [hb, hv, gated, if_neg (by decide), if_pos hinit]
  · obtain ⟨t, ht, hends⟩ := exec_endsAs i s
    obtain ⟨st, hmay, evs, htr, hevs⟩ := hends.answers
    have hst : st ≠ 2 := by
      rintro rfl
      exact absurd ((needsInit_of_mayAnswer hmay).symm.trans hi) (by decide)
    exact ⟨t, evs, ht, htr, fun rw hrw => ne_of_eq_of_ne (hevs _ hrw) hst,
      fun rw d hrw => ne_of_eq_of_ne (hevs _ hrw) hst⟩

/-- Settles O47: the status is that of all the command's responses. -/
theorem onlyTabledErrorsAreAnswered : Obligations.OnlyTabledErrorsAreAnswered := by
  unfold Obligations.OnlyTabledErrorsAreAnswered
  intro i s t ht
  obtain ⟨st, hmay, evs, htr, hevs⟩ := (endsAs_of_exec ht).answers
  refine ⟨evs, htr, fun rw hrw => ?_⟩
  have hst : statusOf rw = st := hevs _ hrw
  rwa [hst]

/-- A refusal's one event is its response. -/
theorem eq_errWord_of_raise {e : Err} {s : State} {evs : List Event} {rw : Word}
    (ht : (raise e s).trace = s.trace ++ evs) (hrw : .response rw ∈ evs) : rw = errWord e := by
  have hevs : evs = [.response (errWord e)] := (List.append_cancel_left ht).symm
  simpa [hevs] using hrw

/-- Settles O48: a status other than 0 and 3 is a refusal's, and a refusal is its response. -/
theorem errorsChangeNothing : Obligations.ErrorsChangeNothing := by
  unfold Obligations.ErrorsChangeNothing
  intro i s t evs rw hexec ht hrw h0 h3
  cases endsAs_of_exec hexec with
  | served h => exact absurd (h.of_append ht _ hrw) h0
  | failed _ h _ => exact absurd (h.of_append ht _ hrw) h3
  | refused e => rw [eq_errWord_of_raise ht hrw]; rfl

/-- Settles O49: a status 3 is a failure's, whose residue is R255's; a refusal leaves even less. -/
theorem transportFailureResidue : Obligations.TransportFailureResidue := by
  unfold Obligations.TransportFailureResidue
  intro i s t evs rw hexec ht hrw h3
  cases endsAs_of_exec hexec with
  | served h =>
    have h0 : statusOf rw = 0 := h.of_append ht _ hrw
    exact absurd (h0.symm.trans h3) (by decide)
  | refused e => exact ⟨rfl, rfl, rfl, .inl rfl⟩
  | failed _ _ h => exact ⟨h.down, h.inited, h.fsm, h.up⟩

end Sys2Proof.Machine

/-! Every step completes (R250, R261, R262). -/

namespace Sys2Proof.Machine

theorem resetDuringStep_completes (done : Nat) (s : State) : ∃ t, resetDuringStep done s = .next t := by
  rcases resetDuringStep_cases done s with hr | ⟨cw, rest, -, -, ⟨t, -, hr⟩ | ⟨r, -, -⟩ | ⟨r, hw, -⟩⟩
  · exact ⟨_, hr⟩
  · exact ⟨_, hr⟩
  · cases r
  · obtain ⟨t, -, ht, -⟩ := execWord_addsThenOne cw { s with cmds := rest }
    exact absurd (ht.symm.trans hw) (by simp)

/-- Settles O54, by the agent whose turn it is; no premise is needed on the state. -/
theorem noStepStops : Obligations.NoStepStops := by
  unfold Obligations.NoStepStops
  intro s
  obtain ⟨r, -, hs | ⟨cw, rest, -, -, ⟨e, -, hs⟩ | ⟨i, -, hs⟩⟩ | hs | hs | ⟨done, hs⟩⟩ := step_cases s
  · exact ⟨_, hs⟩
  · exact ⟨_, hs⟩
  · obtain ⟨t, ht, -⟩ := exec_endsAs i { r with cmds := rest }
    exact ⟨t, hs.trans ht⟩
  · exact ⟨_, hs⟩
  · exact ⟨_, hs⟩
  · rw [hs]; exact resetDuringStep_completes done r

end Sys2Proof.Machine

/-! A word on the port that TRB is not ready for is held (R302). -/

namespace Sys2Proof.Machine

open Sys2Proof.Claims

/-- The model holds the words R302 says TRB is not ready for. -/
theorem accepts_eq_false_iff_not_readyFor (f : Fsm) (cw : Word) : accepts f cw = false ↔ ¬ readyFor f cw := by
  rw [← accepts_iff_readyFor, Bool.not_eq_true]

theorem hostStep_held {s : State} {cw : Word} {rest : List Word} (hc : s.cmds = cw :: rest)
    (ha : accepts s.fsm cw = false) : hostStep s = .next s := by
  simp [hostStep, hc, ha]

/-- A host's turn, scheduled or not, whose word is held consumes the turn and nothing else. -/
theorem step_held {s : State} {cw : Word} {rest : List Word} (ht : (turn s).1 = .host) (hc : s.cmds = cw :: rest)
    (hn : ¬ readyFor s.fsm cw) : step s = .next (moved s) := by
  have hm : (turn s).2 = moved s := turn_frame s
  rw [step, ht, hm]
  exact hostStep_held (s := moved s) hc ((accepts_eq_false_iff_not_readyFor _ _).2 hn)

/-- R302's two cases, a word other than ABORT in Committed and Polling and any word in Found and BandLimit, are words TRB
is not ready for. -/
theorem not_readyFor_of_unready {f : Fsm} {cw : Word}
    (h : ((f = .committed ∨ f = .polling) ∧ opOf cw ≠ 0x08) ∨ f = .found ∨ f = .bandLimit) : ¬ readyFor f cw := by
  obtain ⟨rfl | rfl, hop⟩ | rfl | rfl := h
  · simpa [readyFor] using hop
  · simpa [readyFor] using hop
  · simp [readyFor]
  · simp [readyFor]

/-- Settles O41: a host's turn holds the words TRB is not ready for and executes the others. -/
theorem unreadyWordIsHeld : Obligations.UnreadyWordIsHeld := by
  unfold Obligations.UnreadyWordIsHeld
  intro s cw rest ht hc
  exact ⟨fun h => step_held ht hc (not_readyFor_of_unready h), step_accepted ht hc⟩

end Sys2Proof.Machine

/-! The reset input (R290): with no command in progress, and inside a command (log entry 11). -/

namespace Sys2Proof.Machine

open Sys2Proof.Claims

/-- The gate answers every command of an initialized handle after a reset (R254, R290). -/
theorem uninitialized_hardwareReset (s : State) : Uninitialized (hardwareReset s) :=
  ⟨rfl, rfl, fun _ => rfl, fun i hi hv => (gateAnswersNotInitialized i (hardwareReset s)).1 hi hv rfl⟩

theorem uninitialized_dropCommand (done : Nat) (s t : State) : Uninitialized (dropCommand done s t) :=
  uninitialized_hardwareReset _

theorem dropCommand_cmds (done : Nat) (s t : State) : (dropCommand done s t).cmds = s.cmds := by
  rw [dropCommand_eq]; rfl

theorem dropCommand_sched (done : Nat) (s t : State) : (dropCommand done s t).sched = s.sched := by
  rw [dropCommand_eq]; rfl

theorem isBusEvent_eq_isBus (e : Event) : isBusEvent e = isBus e := by
  cases e <;> rfl

/-- The bus events a dropped command has shown have used up their answers (R11, R290). -/
theorem dropCommand_env {pre : List Event} {s t : State} (h : AddsThenOne pre s t) (done : Nat) :
    (dropCommand done s t).env = s.env.drop ((pre.take done).filter isBus).length := by
  obtain ⟨e, ht⟩ := h
  have hbus : isBusEvent = isBus := funext isBusEvent_eq_isBus
  rw [dropCommand_eq, eventsBetween_of_append ht, List.dropLast_concat, List.countP_eq_length_filter, hbus]
  rfl

/-- Without a word that would be accepted the reset finds no command in progress. -/
theorem resetDuringStep_held {s : State} (h : ∀ cw rest, s.cmds = cw :: rest → ¬ readyFor s.fsm cw) (done : Nat) :
    resetDuringStep done s = .next (hardwareReset s) := by
  cases hc : s.cmds with
  | nil => simp [resetDuringStep, hc]
  | cons cw rest =>
    have ha : accepts s.fsm cw = false := (accepts_eq_false_iff_not_readyFor _ _).2 (h cw rest hc)
    simp [resetDuringStep, hc, ha]

/-- A step of the reset input that finds no command in progress is the reset and the turn. -/
theorem step_reset_of_no_command {s : State} {q : List Turn}
    (h : s.sched = .reset :: q ∨
      (∃ k, s.sched = .resetDuring k :: q) ∧ ∀ cw rest, s.cmds = cw :: rest → ¬ readyFor s.fsm cw) :
    step s = .next (hardwareReset { s with sched := q }) := by
  rcases h with hs | ⟨⟨k, hs⟩, hheld⟩
  · rw [step_of_turn hs, agentStep]
  · rw [step_of_turn hs, agentStep]
    exact resetDuringStep_held (s := { s with sched := q }) hheld k

/-- A step of the reset input inside the command whose word is accepted drops what that word, left alone, would have
done. -/
theorem step_resetDuring_accepted {s t : State} {q : List Turn} {k : Nat} {cw : Word} {rest : List Word}
    (hs : s.sched = .resetDuring k :: q) (hc : s.cmds = cw :: rest) (hr : readyFor s.fsm cw)
    (ht : execWord cw { s with cmds := rest, sched := q } = .next t) :
    step s = .next (dropCommand k { s with cmds := rest, sched := q } t) := by
  have ha : accepts s.fsm cw = true := (accepts_iff_readyFor _ _).2 hr
  rw [step_of_turn hs, agentStep]
  simp [resetDuringStep, hc, ha, ht]

/-! What an accepted word shows before its last event. -/

/-- What a word shows before its last event: nothing if it is malformed, and otherwise what its command does. -/
def wordEventsBeforeLast (cw : Word) (s : State) : List Event :=
  match decode cw with
  | .error _ => []
  | .ok i => eventsBeforeLast i s

theorem wordEventsBeforeLast_error {cw : Word} {e : Malformed} (hd : decode cw = .error e) (s : State) :
    wordEventsBeforeLast cw s = [] := by
  simp [wordEventsBeforeLast, hd]

theorem wordEventsBeforeLast_ok {cw : Word} {i : Instr} (hd : decode cw = .ok i) (s : State) :
    wordEventsBeforeLast cw s = eventsBeforeLast i s := by
  simp [wordEventsBeforeLast, hd]

theorem execWord_addsWordEvents (cw : Word) (s : State) :
    ∃ t, execWord cw s = .next t ∧ AddsThenOne (wordEventsBeforeLast cw s) s t := by
  cases hd : decode cw with
  | error e =>
    rw [wordEventsBeforeLast_error hd]
    exact ⟨_, execWord_error hd s, AddsThenOne.raise _ s⟩
  | ok i =>
    rw [wordEventsBeforeLast_ok hd, execWord_ok hd]
    exact exec_addsThenOne i s

/-- With no search running an ABORT has nothing to end, so every command shows the bus events of its rule. -/
theorem eventsBeforeLast_of_idle {s : State} (hf : s.fsm = .idle) (i : Instr) :
    eventsBeforeLast i s = busEventsOf i s := by
  unfold eventsBeforeLast
  split
  · simp [cancelEvents, hf, busEventsOf]
  · rfl

/-- A response a word shows before its last event is the Cancelled one of a search that was running (R230). -/
theorem response_mem_wordEventsBeforeLast {cw : Word} {s : State} {e : Event} (he : e ∈ wordEventsBeforeLast cw s)
    (hr : isResponse e = true) : s.fsm ≠ .idle ∧ e = .response 0x1800000000000000 := by
  cases hd : decode cw with
  | error _ =>
    rw [wordEventsBeforeLast_error hd] at he
    cases he
  | ok i =>
    rw [wordEventsBeforeLast_ok hd] at he
    refine ⟨fun hf => ?_, eq_cancelled_of_mem_eventsBeforeLast he hr⟩
    rw [eventsBeforeLast_of_idle hf] at he
    exact absurd (hr.symm.trans (isResponse_eq_false_of_mem_busEventsOf he)) (by decide)

/-- Settles O59: with no command in progress the step is the reset alone, and inside a command what that command had
shown before its last event stands in the record before it. -/
theorem resetInputUninitializes : Obligations.ResetInputUninitializes := by
  unfold Obligations.ResetInputUninitializes
  intro s q
  refine ⟨fun h => ⟨_, step_reset_of_no_command h, uninitialized_hardwareReset _, rfl, rfl, rfl, rfl⟩, ?_⟩
  intro k cw rest hs hc hr
  obtain ⟨t, ht, hadds⟩ := execWord_addsWordEvents cw { s with cmds := rest, sched := q }
  refine ⟨_, _, step_resetDuring_accepted hs hc hr ht, uninitialized_dropCommand _ _ _, dropCommand_trace hadds k,
    dropCommand_cmds _ _ _, dropCommand_sched _ _ _, fun e he hresp => ?_, fun u hu => ?_⟩
  · exact response_mem_wordEventsBeforeLast (s := { s with cmds := rest, sched := q }) (List.mem_of_mem_take he) hresp
  · obtain rfl : t = u := Host.Outcome.next.inj (ht.symm.trans hu)
    obtain ⟨e, htrace⟩ := hadds
    rw [htrace]
    exact (List.prefix_append_right_inj _).2 ((List.take_prefix k _).trans (List.prefix_append _ _))

/-! The bus events of a command's rule do not depend on the words to come and the schedule. -/

theorem drawAnswer_ports (s : State) (cmds : List Word) (sched : List Turn) :
    drawAnswer { s with cmds := cmds, sched := sched } =
      ((drawAnswer s).1, { (drawAnswer s).2 with cmds := cmds, sched := sched }) := by
  unfold drawAnswer
  cases s.env <;> rfl

theorem busEventsOf_ports (i : Instr) (s : State) (cmds : List Word) (sched : List Turn) :
    busEventsOf i { s with cmds := cmds, sched := sched } = busEventsOf i s := by
  simp only [busEventsOf, drawAnswer_ports]

/-- Settles O60: the events kept are the first of those the word shows before its last one. -/
theorem resetInsideCommandLeavesItsBusEvents : Obligations.ResetInsideCommandLeavesItsBusEvents := by
  unfold Obligations.ResetInsideCommandLeavesItsBusEvents
  intro s q k cw rest hs hc hr
  obtain ⟨t, ht, hadds⟩ := execWord_addsWordEvents cw { s with cmds := rest, sched := q }
  refine ⟨_, _, step_resetDuring_accepted hs hc hr ht, dropCommand_trace hadds k, dropCommand_env hadds k,
    fun ⟨e, hd⟩ => ?_, fun i hd => ⟨fun hf => ?_, fun u evs hu hevs => ?_⟩⟩
  · rw [wordEventsBeforeLast_error hd, List.take_nil]
  · have hidle := eventsBeforeLast_of_idle (s := { s with cmds := rest, sched := q }) hf i
    rw [wordEventsBeforeLast_ok hd, hidle, busEventsOf_ports]
  · obtain rfl : t = u := Host.Outcome.next.inj (ht.symm.trans ((execWord_ok hd _).trans hu))
    obtain ⟨e, htrace⟩ := hadds
    rw [List.append_cancel_left (hevs.symm.trans htrace), List.dropLast_concat]

end Sys2Proof.Machine
